-- ==== Sys2Proof/Word.lean ====
section
/-! DEFINITION. The word of the machine and the types named by bare numbers: rules R4, R6, R10, R17 of spec/. -/

namespace Sys2Proof

/-- A 16-bit word (R4, R6): register contents, memory cells, the PC, the IR, addresses and device registers.
A bit pattern with two readings, `toNat` (unsigned) and `toInt` (two's complement). -/
abbrev Word := BitVec 16

/-- A byte of the output stream (R22). -/
abbrev Byte := BitVec 8

/-- The number of a general register, 0 to 7 (R10). -/
abbrev Reg := Fin 8

/-- One listed location of the memory array (R17): its address, read unsigned (R31), and the word it holds.
The addressable unit of this machine is the 16-bit word; log entry 1. -/
abbrev Cell := Nat × Word

end Sys2Proof
end

