-- ==== Sys2Proof/Syntax.lean ====
section
/-! DEFINITION. The instructions: one constructor per row of spec/opcode_table.json (rules R54, R55). -/

namespace Sys2Proof

/-- The 15 instruction forms and the three unsupported opcodes.
A register operand is its number; an immediate or an offset is the signed number the assembly form writes (R66), a trap
vector the unsigned one. Bits that the decoder ignores (R57) are no operand. DESIGN CHOICE, safe; log entries 7 and 8. -/
inductive Instr where
  /-- BR, format BR: the three condition letters and PCoffset9 (R58, R110). -/
  | br (n z p : Bool) (pcOffset9 : Int)
  /-- ADD, register form, format OPR (R80). -/
  | addReg (dr sr1 sr2 : Reg)
  /-- ADD, immediate form, format OPI (R81). -/
  | addImm (dr sr1 : Reg) (imm5 : Int)
  /-- LD, format PC9 (R90). -/
  | ld (dr : Reg) (pcOffset9 : Int)
  /-- ST, format PC9S (R100). -/
  | st (sr : Reg) (pcOffset9 : Int)
  /-- JSR, format J11 (R111). -/
  | jsr (pcOffset11 : Int)
  /-- AND, register form, format OPR (R82). -/
  | andReg (dr sr1 sr2 : Reg)
  /-- AND, immediate form, format OPI (R83). -/
  | andImm (dr sr1 : Reg) (imm5 : Int)
  /-- LDR, format B6 (R92). -/
  | ldr (dr baseR : Reg) (offset6 : Int)
  /-- STR, format B6S (R102). -/
  | str (sr baseR : Reg) (offset6 : Int)
  /-- Opcode 1000, unsupported: the decode fault (R63, R120). -/
  | unsupported1000
  /-- Opcode 1001, unsupported: the decode fault (R63, R120). -/
  | unsupported1001
  /-- LDI, format PC9 (R91). -/
  | ldi (dr : Reg) (pcOffset9 : Int)
  /-- STI, format PC9S (R101). -/
  | sti (sr : Reg) (pcOffset9 : Int)
  /-- RET (R112). -/
  | ret
  /-- Opcode 1101, unsupported: the decode fault (R63, R120). -/
  | unsupported1101
  /-- LEA, format PC9 (R93). -/
  | lea (dr : Reg) (pcOffset9 : Int)
  /-- TRAP, format TRP (R113). -/
  | trap (trapvect8 : Nat)
  deriving DecidableEq, Repr

end Sys2Proof
end

