-- ==== Sys2Proof/WellFormed.lean ====
section
/-! DEFINITION. Which instructions have an encoding: every immediate lies in the range of its field (R7, R53).
The register operands are 3-bit by their type. -/

namespace Sys2Proof

/-- `v` fits a two's-complement field of `n` bits (R7). -/
def fitsSigned (n : Nat) (v : Int) : Bool :=
  decide (-(2 ^ (n - 1) : Int) ≤ v) && decide (v < (2 ^ (n - 1) : Int))

/-- `v` fits an unsigned field of `n` bits (R7). -/
def fitsUnsigned (n : Nat) (v : Nat) : Bool := decide (v < 2 ^ n)

/-- The operands are in the ranges of R53. -/
def Instr.wellFormed : Instr → Bool
  | .br _ _ _ off => fitsSigned 9 off
  | .addReg _ _ _ => true
  | .addImm _ _ imm => fitsSigned 5 imm
  | .ld _ off => fitsSigned 9 off
  | .st _ off => fitsSigned 9 off
  | .jsr off => fitsSigned 11 off
  | .andReg _ _ _ => true
  | .andImm _ _ imm => fitsSigned 5 imm
  | .ldr _ _ off => fitsSigned 6 off
  | .str _ _ off => fitsSigned 6 off
  | .unsupported1000 => true
  | .unsupported1001 => true
  | .ldi _ off => fitsSigned 9 off
  | .sti _ off => fitsSigned 9 off
  | .ret => true
  | .unsupported1101 => true
  | .lea _ off => fitsSigned 9 off
  | .trap v => fitsUnsigned 8 v

end Sys2Proof
end

