-- ==== Sys2Proof/Decode.lean ====
section
/-! DEFINITION. The decoder, total on every word (R55), the encoder of the canonical words (R52, R60), and the match and
mask of each row of spec/opcode_table.json. UNVERIFIED: the opcode numbers and some field positions are the spec's from
general knowledge (G1 to G3), unsafe; log entry 9. -/

namespace Sys2Proof

/-! ### Fields of an instruction word (R51) -/

/-- DR, and SR of a store: bits 11:9. -/
def Word.destReg (w : Word) : Reg := (w.extractLsb' 9 3).toFin

/-- SR1, and BaseR: bits 8:6. -/
def Word.srcReg1 (w : Word) : Reg := (w.extractLsb' 6 3).toFin

/-- SR2: bits 2:0. -/
def Word.srcReg2 (w : Word) : Reg := (w.extractLsb' 0 3).toFin

/-- The immediate flag: bit 5. -/
def Word.immediateFlag (w : Word) : Bool := w[5]

/-- imm5: bits 4:0, signed. -/
def Word.imm5 (w : Word) : Int := (w.extractLsb' 0 5).toInt

/-- offset6: bits 5:0, signed. -/
def Word.offset6 (w : Word) : Int := (w.extractLsb' 0 6).toInt

/-- PCoffset9: bits 8:0, signed. -/
def Word.pcOffset9 (w : Word) : Int := (w.extractLsb' 0 9).toInt

/-- PCoffset11: bits 10:0, signed. -/
def Word.pcOffset11 (w : Word) : Int := (w.extractLsb' 0 11).toInt

/-- trapvect8: bits 7:0, unsigned. -/
def Word.trapvect8 (w : Word) : Nat := (w.extractLsb' 0 8).toNat

/-- The decoder (R54 to R57): bits 15:12, one arm for each of the sixteen opcodes, and bit 5 for ADD and AND only. -/
def decode (w : Word) : Instr :=
  match w[15], w[14], w[13], w[12] with
  | false, false, false, false => .br w[11] w[10] w[9] (Word.pcOffset9 w)
  | false, false, false, true =>
    match Word.immediateFlag w with
    | false => .addReg (Word.destReg w) (Word.srcReg1 w) (Word.srcReg2 w)
    | true => .addImm (Word.destReg w) (Word.srcReg1 w) (Word.imm5 w)
  | false, false, true, false => .ld (Word.destReg w) (Word.pcOffset9 w)
  | false, false, true, true => .st (Word.destReg w) (Word.pcOffset9 w)
  | false, true, false, false => .jsr (Word.pcOffset11 w)
  | false, true, false, true =>
    match Word.immediateFlag w with
    | false => .andReg (Word.destReg w) (Word.srcReg1 w) (Word.srcReg2 w)
    | true => .andImm (Word.destReg w) (Word.srcReg1 w) (Word.imm5 w)
  | false, true, true, false => .ldr (Word.destReg w) (Word.srcReg1 w) (Word.offset6 w)
  | false, true, true, true => .str (Word.destReg w) (Word.srcReg1 w) (Word.offset6 w)
  | true, false, false, false => .unsupported1000
  | true, false, false, true => .unsupported1001
  | true, false, true, false => .ldi (Word.destReg w) (Word.pcOffset9 w)
  | true, false, true, true => .sti (Word.destReg w) (Word.pcOffset9 w)
  | true, true, false, false => .ret
  | true, true, false, true => .unsupported1101
  | true, true, true, false => .lea (Word.destReg w) (Word.pcOffset9 w)
  | true, true, true, true => .trap (Word.trapvect8 w)

/-- The instruction read from the low `nbits` bits of `w`, numbered as spec/opcode_table.json numbers them; an
instruction is one word (R50) and every word decodes (R55), so the answer is never `none`. -/
def decodeTableWord (nbits w : Nat) : Option Instr :=
  some (decode (BitVec.ofNat 16 (w % 2 ^ nbits)))

/-! ### The encoder -/

/-- The field `v` with its lowest bit at bit `lo` of a word that is zero elsewhere. -/
def placeField {n : Nat} (v : BitVec n) (lo : Nat) : Word := v.setWidth 16 <<< lo

/-- The register number `r` in the 3-bit field at bit `lo`. -/
def placeReg (r : Reg) (lo : Nat) : Word := placeField (BitVec.ofFin r : BitVec 3) lo

/-- The low `n` bits of the signed number `v`, in bits n-1 to 0: the field of R53. -/
def placeSigned (n : Nat) (v : Int) : Word := placeField (BitVec.ofInt n v) 0

/-- One bit at bit `lo`. -/
def placeBit (b : Bool) (lo : Nat) : Word := placeField (BitVec.ofBool b) lo

/-- The canonical word of an instruction (R52, R60).
The three unsupported opcodes have no canonical word in the spec: their ignored bits are written 0. DESIGN CHOICE, safe;
log entry 7. -/
def encode : Instr → Word
  | .br n z p off => 0x0000#16 ||| placeBit n 11 ||| placeBit z 10 ||| placeBit p 9 ||| placeSigned 9 off
  | .addReg dr sr1 sr2 => 0x1000#16 ||| placeReg dr 9 ||| placeReg sr1 6 ||| placeReg sr2 0
  | .addImm dr sr1 imm => 0x1020#16 ||| placeReg dr 9 ||| placeReg sr1 6 ||| placeSigned 5 imm
  | .ld dr off => 0x2000#16 ||| placeReg dr 9 ||| placeSigned 9 off
  | .st sr off => 0x3000#16 ||| placeReg sr 9 ||| placeSigned 9 off
  | .jsr off => 0x4800#16 ||| placeSigned 11 off
  | .andReg dr sr1 sr2 => 0x5000#16 ||| placeReg dr 9 ||| placeReg sr1 6 ||| placeReg sr2 0
  | .andImm dr sr1 imm => 0x5020#16 ||| placeReg dr 9 ||| placeReg sr1 6 ||| placeSigned 5 imm
  | .ldr dr base off => 0x6000#16 ||| placeReg dr 9 ||| placeReg base 6 ||| placeSigned 6 off
  | .str sr base off => 0x7000#16 ||| placeReg sr 9 ||| placeReg base 6 ||| placeSigned 6 off
  | .unsupported1000 => 0x8000#16
  | .unsupported1001 => 0x9000#16
  | .ldi dr off => 0xA000#16 ||| placeReg dr 9 ||| placeSigned 9 off
  | .sti sr off => 0xB000#16 ||| placeReg sr 9 ||| placeSigned 9 off
  | .ret => 0xC1C0#16
  | .unsupported1101 => 0xD000#16
  | .lea dr off => 0xE000#16 ||| placeReg dr 9 ||| placeSigned 9 off
  | .trap v => 0xF000#16 ||| placeField (BitVec.ofNat 8 v) 0

/-! ### The rows of the opcode table (R55): a word `w` belongs to a row when `w &&& mask = match` -/

/-- The row's mask: the bits the decoder examines (R55). -/
def Instr.rowMask : Instr → Word
  | .br _ _ _ _ => 0xF000#16
  | .addReg _ _ _ => 0xF020#16
  | .addImm _ _ _ => 0xF020#16
  | .ld _ _ => 0xF000#16
  | .st _ _ => 0xF000#16
  | .jsr _ => 0xF000#16
  | .andReg _ _ _ => 0xF020#16
  | .andImm _ _ _ => 0xF020#16
  | .ldr _ _ _ => 0xF000#16
  | .str _ _ _ => 0xF000#16
  | .unsupported1000 => 0xF000#16
  | .unsupported1001 => 0xF000#16
  | .ldi _ _ => 0xF000#16
  | .sti _ _ => 0xF000#16
  | .ret => 0xF000#16
  | .unsupported1101 => 0xF000#16
  | .lea _ _ => 0xF000#16
  | .trap _ => 0xF000#16

/-- The row's match (R55). -/
def Instr.rowMatch : Instr → Word
  | .br _ _ _ _ => 0x0000#16
  | .addReg _ _ _ => 0x1000#16
  | .addImm _ _ _ => 0x1020#16
  | .ld _ _ => 0x2000#16
  | .st _ _ => 0x3000#16
  | .jsr _ => 0x4000#16
  | .andReg _ _ _ => 0x5000#16
  | .andImm _ _ _ => 0x5020#16
  | .ldr _ _ _ => 0x6000#16
  | .str _ _ _ => 0x7000#16
  | .unsupported1000 => 0x8000#16
  | .unsupported1001 => 0x9000#16
  | .ldi _ _ => 0xA000#16
  | .sti _ _ => 0xB000#16
  | .ret => 0xC000#16
  | .unsupported1101 => 0xD000#16
  | .lea _ _ => 0xE000#16
  | .trap _ => 0xF000#16

/-- The bits of the row that belong to no field and have no effect (R57). -/
def Instr.ignoredBits : Instr → Word
  | .br _ _ _ _ => 0x0000#16
  | .addReg _ _ _ => 0x0018#16
  | .addImm _ _ _ => 0x0000#16
  | .ld _ _ => 0x0000#16
  | .st _ _ => 0x0000#16
  | .jsr _ => 0x0800#16
  | .andReg _ _ _ => 0x0018#16
  | .andImm _ _ _ => 0x0000#16
  | .ldr _ _ _ => 0x0000#16
  | .str _ _ _ => 0x0000#16
  | .unsupported1000 => 0x0FFF#16
  | .unsupported1001 => 0x0FFF#16
  | .ldi _ _ => 0x0000#16
  | .sti _ _ => 0x0000#16
  | .ret => 0x0FFF#16
  | .unsupported1101 => 0x0FFF#16
  | .lea _ _ => 0x0000#16
  | .trap _ => 0x0F00#16

end Sys2Proof
end

