-- ==== Sys2Proof/Config.lean ====
section
/-! DEFINITION. What the implementation fixes: the device addresses of rule R4 and the defaults of the two open
parameters of rule R5. The spec leaves no value of this machine open, so there is no free value here. -/

namespace Sys2Proof

/-- Address of the Display Status Register (R4, R18). -/
def Config.dsrAddr : Word := 0xFE04

/-- Address of the Display Data Register (R4, R19). -/
def Config.ddrAddr : Word := 0xFE06

/-- Address of the Machine Control Register (R4, R20). -/
def Config.mcrAddr : Word := 0xFFFE

/-- `PC_RESET`, R5: the spec's own default. DESIGN CHOICE of the spec (D13), unsafe where a claim rests on it; log entry 2. -/
def Config.pcReset : Word := 0x3000

/-- `MEM_IMAGE`, R5: the spec's own default, every cell zero, so that nothing is listed.
DESIGN CHOICE of the spec (D14), unsafe where a claim rests on it; log entry 3. -/
def Config.memImage : List Cell := []

/-- What a location that nothing has written and no loader has placed reads as (R25: "0x0000 where it placed none"). -/
def Config.unlisted : Word := 0x0000

end Sys2Proof
end

