-- ==== Sys2Proof/Machine/State.lean ====
section
/-! DEFINITION. The machine's state, the reasons a step could stop, and the state after reset (spec/10_state.md). -/

namespace Sys2Proof.Machine

/-- The memory array (R17) as its listed cells: addresses strictly rising, none holding what an unlisted address reads
as. -/
abbrev Memory := List Cell

/-- The canonical form of memory: every key an address, rising, no cell equal to what an unlisted address reads as. -/
abbrev Memory.wf (m : Memory) : Prop :=
  m.Pairwise (fun c d => c.1 < d.1) ∧ ∀ c ∈ m, c.1 < 65536 ∧ c.2 ≠ Config.unlisted

/-- The run state (R21). -/
inductive RunState where
  /-- A cycle is enabled. -/
  | running
  /-- Normal completion: a program cleared the power bit (R76). -/
  | halted
  /-- Abnormal termination: a decode fault (R120). -/
  | faulted
  deriving DecidableEq, Repr

/-- The fault record (R21, R120): the opcode of the faulting word and the PC, already incremented. -/
structure FaultRecord where
  op : BitVec 4
  pc : Word
  deriving DecidableEq, Repr

/-- The state of the core: everything R10 to R22 name, and nothing else (R23). -/
structure State where
  /-- The general registers x[0] to x[7] (R10). -/
  regs : Vector Word 8
  /-- The program counter (R12). -/
  pc : Word
  /-- The instruction register (R14). -/
  ir : Word
  /-- Condition flag N (R15). -/
  n : Bool
  /-- Condition flag Z (R15). -/
  z : Bool
  /-- Condition flag P (R15). -/
  p : Bool
  /-- The memory array (R17); its cells at the three device addresses are shadowed (R34). -/
  mem : Memory
  /-- Display Status Register (R18). -/
  dsr : Word
  /-- Display Data Register (R19). -/
  ddr : Word
  /-- Machine Control Register (R20). -/
  mcr : Word
  /-- The run state (R21). -/
  run : RunState
  /-- The fault record, held only in FAULTED (R21). -/
  fault : Option FaultRecord
  /-- The output stream, oldest byte first (R22). -/
  out : List Byte
  deriving DecidableEq, Repr

/-- Reasons for the machine to stop outside the spec's own terminal states. There are none: the one fault of the
hardware, the decode fault, is a next state with `run` = FAULTED (R120), every address is valid (R31) and no handler can
fault (R75, R122). Safe; log entry 6. -/
inductive Fault where
  deriving DecidableEq, Repr

/-- Reasons for the model to give an instruction no meaning. -/
inductive Refusal where
  /-- Raised by an arm of `exec` whose instruction has no meaning yet; no arm does. Safe. -/
  | notModelled (mnemonic : String)
  deriving DecidableEq, Repr

/-- What an instruction or a step answers. -/
abbrev Result := Host.Outcome State Fault Refusal

/-- The state when the run starts (R25, R140), for the two open parameters of R5: the initial PC and the words the loader
placed. DESIGN CHOICE of the spec (D12), unsafe where a claim rests on it: the IR, the DDR and bits 14:0 of the DSR and the
MCR; log entry 4. -/
def State.resetWith (pcReset : Word) (memImage : Memory) : State where
  regs := #v[0, 0, 0, 0, 0, 0, 0, 0]
  pc := pcReset
  ir := 0x0000
  n := false
  z := true
  p := false
  mem := memImage
  dsr := 0x8000
  ddr := 0x0000
  mcr := 0x8000
  run := .running
  fault := none
  out := []

/-- The state right after reset, at the spec's defaults of the two parameters (R5, R25); log entries 2 and 3. -/
def State.reset : State := State.resetWith Config.pcReset Config.memImage

end Sys2Proof.Machine
end

