-- ==== Sys2Proof/Machine/Ops.lean ====
section
/-! DEFINITION. The named operations over registers, memory, devices and output, the decode fault, and the subroutine and
trap linkage. -/

namespace Sys2Proof.Machine

/-! ### General registers (R10): no register is hardwired -/

/-- `x[r]`. -/
def State.readReg (s : State) (r : Reg) : Word := s.regs[r]

/-- `x[r] <- v`. -/
def State.writeReg (s : State) (r : Reg) (v : Word) : State := { s with regs := s.regs.set r v }

/-! ### The memory array (R17) -/

/-- `mem[a]`: the listed cell, else what an unlisted address reads as. -/
def Memory.read : Memory → Nat → Word
  | [], _ => Config.unlisted
  | (k, v) :: m, a => if k = a then v else Memory.read m a

/-- The cell `(a, v)` put in before the first greater address. -/
def Memory.insert : Memory → Nat → Word → Memory
  | [], a, v => [(a, v)]
  | (k, w) :: m, a, v => if a < k then (a, v) :: (k, w) :: m else (k, w) :: Memory.insert m a v

/-- The cell `a` taken out. -/
def Memory.erase (m : Memory) (a : Nat) : Memory := m.filter (fun c => decide (c.1 ≠ a))

/-- `mem[a] <- v`, in canonical form: a cell that would hold what an unlisted address reads as is not listed. -/
def Memory.write (m : Memory) (a : Nat) (v : Word) : Memory :=
  if v = Config.unlisted then Memory.erase m a else Memory.insert (Memory.erase m a) a v

/-! ### The access layer (R32 to R34): every dereference, the fetch among them, goes through these two -/

/-- `MemRead(a, 1)` (R32). -/
def State.memRead (s : State) (a : Word) : Word :=
  if a = Config.dsrAddr then s.dsr
  else if a = Config.ddrAddr then s.ddr
  else if a = Config.mcrAddr then s.mcr
  else Memory.read s.mem a.toNat

/-- `MemWrite(a, 1, v)` (R33): a store to the DDR also sets the DSR to the pending value 0x0000 (D10). -/
def State.memWrite (s : State) (a v : Word) : State :=
  if a = Config.dsrAddr then { s with dsr := v }
  else if a = Config.ddrAddr then { s with ddr := v, dsr := 0x0000 }
  else if a = Config.mcrAddr then { s with mcr := v }
  else { s with mem := Memory.write s.mem a.toNat v }

/-- The word `v` put where a read at `a` finds it, with no side effect: what a loader does before the run (R9, R143). -/
def State.placeWord (s : State) (a v : Word) : State :=
  if a = Config.dsrAddr then { s with dsr := v }
  else if a = Config.ddrAddr then { s with ddr := v }
  else if a = Config.mcrAddr then { s with mcr := v }
  else { s with mem := Memory.write s.mem a.toNat v }

/-! ### Devices and output (R18 to R22) -/

/-- The ready bit, DSR[15] (R18). -/
def State.displayReady (s : State) : Bool := s.dsr[15]

/-- The power bit, MCR[15] (R20). -/
def State.powered (s : State) : Bool := s.mcr[15]

/-- `emit(b)` (R22). -/
def State.emit (s : State) (b : Byte) : State := { s with out := s.out ++ [b] }

/-! ### The one exception, and the linkage of JSR and TRAP -/

/-- `raise DecodeFault(op, pc)` (R120): the opcode and the incremented PC are recorded and the core stops in FAULTED; no
general register, flag, memory cell or device register changes. There is no return from it (R77). -/
def State.raiseDecodeFault (s : State) (op : BitVec 4) : State :=
  { s with run := .faulted, fault := some ⟨op, s.pc⟩ }

/-- Trap and subroutine entry (R111, R113, R125): the incremented PC is saved in x[7] and control goes to `target`. -/
def State.linkTo (s : State) (target : Word) : State :=
  { s.writeReg 7 s.pc with pc := target }

/-- Trap and subroutine return (R112, R126): the PC is restored from x[7], and nothing else. -/
def State.returnThroughLink (s : State) : State := { s with pc := s.readReg 7 }

end Sys2Proof.Machine
end

