-- ==== Sys2Proof/Machine/Cycle.lean ====
section
/-! DEFINITION. The parts of the cycle around the instruction: flush, fetch, power check (R70 to R73, R76). -/

namespace Sys2Proof.Machine

/-- Part (a), the display flush (R71): "pending" is bit 15 of the DSR being 0 (D9); the low byte of the DDR leaves. -/
def State.displayFlush (s : State) : State :=
  if s.displayReady then s else { s.emit (s.ddr.setWidth 8) with dsr := 0x8000 }

/-- Parts (b) and (c), fetch and increment (R72): the fetch goes through the access layer (C6, D8). -/
def State.fetch (s : State) : State := { s with ir := s.memRead s.pc, pc := s.pc + 1 }

/-- Parts (a) to (c): the state in which the instruction now in `ir` executes. -/
def State.beginCycle (s : State) : State := s.displayFlush.fetch

/-- Part (f), the power check (R76), made only in a cycle that executed a handler: after a decode fault `run` is FAULTED
and the check is left out (R73). -/
def State.powerCheck (s : State) : State :=
  if s.run = .running ∧ s.powered = false then { s with run := .halted } else s

/-- Part (f) on what the instruction answered. -/
def finishCycle : Result → Result
  | .next t => .next t.powerCheck
  | .fault r => .fault r
  | .refused r => .refused r

/-- What a step answers in HALTED and FAULTED (R77): the core takes no cycle and no state changes.
DESIGN CHOICE, safe; log entry 5. -/
def terminalStep (s : State) : Result := .next s

end Sys2Proof.Machine
end

