-- ==== Sys2Proof/Machine/Flags.lean ====
section
/-! DEFINITION. The condition codes: `setcc` (R74) and the branch test (R110). -/

namespace Sys2Proof.Machine

/-- `setcc(v)` (R74): N when v[15] = 1, Z when v = 0, P otherwise. -/
def State.setcc (s : State) (v : Word) : State :=
  { s with n := v[15], z := decide (v = 0), p := !v[15] && decide (v ≠ 0) }

/-- The common end of ADD, AND, LD, LDI, LDR and LEA: `x[DR] <- v ; setcc(v)` (R16, R75). -/
def State.writeDest (s : State) (dr : Reg) (v : Word) : State := (s.writeReg dr v).setcc v

/-- `taken` of BR: some requested flag is set (R110). -/
def State.branchTaken (s : State) (n z p : Bool) : Bool := (n && s.n) || (z && s.z) || (p && s.p)

end Sys2Proof.Machine
end

