-- ==== Sys2Proof/Machine/Operands.lean ====
section
/-! DEFINITION. Every operand form: the extension primitives (R7) and the effective addresses (R30, R53, R94, R103). -/

namespace Sys2Proof.Machine

/-- `sext_n(v)` (R7): the low `n` bits of `v`, sign-extended to a word. -/
def sext (n : Nat) (v : Int) : Word := (BitVec.ofInt n v).signExtend 16

/-- `zext_8(v)` (R7): the low 8 bits of `v`, zero-extended to a word. The trap vector is zero-extended (C2, D6). -/
def zext8 (v : Nat) : Word := (BitVec.ofNat 8 v).setWidth 16

/-- `pc + sext_9(PCoffset9)`, on the PC already incremented. -/
def State.pcRel9 (s : State) (off : Int) : Word := s.pc + sext 9 off

/-- `pc + sext_11(PCoffset11)`, on the PC already incremented. -/
def State.pcRel11 (s : State) (off : Int) : Word := s.pc + sext 11 off

/-- `x[BaseR] + sext_6(offset6)`: the PC takes no part (C5). -/
def State.baseRel6 (s : State) (base : Reg) (off : Int) : Word := s.readReg base + sext 6 off

/-- The address that the pointer cell at `pc + sext_9(PCoffset9)` holds: the first hop of LDI and STI (R91, R101), itself
through the access layer (R34, R46). -/
def State.indirect9 (s : State) (off : Int) : Word := s.memRead (s.pcRel9 off)

/-- The entry of the vector table: `MemRead(zext_8(trapvect8), 1)` (R113). -/
def State.trapEntry (s : State) (vec : Nat) : Word := s.memRead (zext8 vec)

end Sys2Proof.Machine
end

