-- ==== Sys2Proof/Machine/Control.lean ====
section
/-! DEFINITION. The control instructions BR, JSR, RET and TRAP (spec/44_control.md). -/

namespace Sys2Proof.Machine

/-- BR (R110). -/
def execBr (n z p : Bool) (off : Int) (s : State) : Result :=
  .next (match s.branchTaken n z p with
    | true => { s with pc := s.pcRel9 off }
    | false => s)

/-- JSR (R111): the target is computed from the PC saved, not from x[7] reread. -/
def execJsr (off : Int) (s : State) : Result := .next (s.linkTo (s.pcRel11 off))

/-- RET (R112). -/
def execRet (s : State) : Result := .next s.returnThroughLink

/-- TRAP (R113). -/
def execTrap (vec : Nat) (s : State) : Result := .next (s.linkTo (s.trapEntry vec))

end Sys2Proof.Machine
end

