-- ==== Sys2Proof/Machine/Loads.lean ====
section
/-! DEFINITION. The loads LD, LDI, LDR and LEA (spec/42_loads.md). -/

namespace Sys2Proof.Machine

/-- LD (R90). -/
def execLd (dr : Reg) (off : Int) (s : State) : Result :=
  .next (s.writeDest dr (s.memRead (s.pcRel9 off)))

/-- LDI (R91): two reads, pointer first. -/
def execLdi (dr : Reg) (off : Int) (s : State) : Result :=
  .next (s.writeDest dr (s.memRead (s.indirect9 off)))

/-- LDR (R92): the base is read before DR is written. -/
def execLdr (dr base : Reg) (off : Int) (s : State) : Result :=
  .next (s.writeDest dr (s.memRead (s.baseRel6 base off)))

/-- LEA (R93): the address itself, no memory access; it sets the flags. -/
def execLea (dr : Reg) (off : Int) (s : State) : Result :=
  .next (s.writeDest dr (s.pcRel9 off))

end Sys2Proof.Machine
end

