-- ==== Sys2Proof/Machine/Operate.lean ====
section
/-! DEFINITION. The operate instructions ADD and AND (spec/41_operate.md). Sources are read before DR is written. -/

namespace Sys2Proof.Machine

/-- ADD, register form (R80). -/
def execAddReg (dr sr1 sr2 : Reg) (s : State) : Result :=
  .next (s.writeDest dr (s.readReg sr1 + s.readReg sr2))

/-- ADD, immediate form (R81). -/
def execAddImm (dr sr1 : Reg) (imm5 : Int) (s : State) : Result :=
  .next (s.writeDest dr (s.readReg sr1 + sext 5 imm5))

/-- AND, register form (R82). -/
def execAndReg (dr sr1 sr2 : Reg) (s : State) : Result :=
  .next (s.writeDest dr (s.readReg sr1 &&& s.readReg sr2))

/-- AND, immediate form (R83). -/
def execAndImm (dr sr1 : Reg) (imm5 : Int) (s : State) : Result :=
  .next (s.writeDest dr (s.readReg sr1 &&& sext 5 imm5))

end Sys2Proof.Machine
end

