-- ==== Sys2Proof/Machine/Stores.lean ====
section
/-! DEFINITION. The stores ST, STI and STR (spec/43_stores.md). -/

namespace Sys2Proof.Machine

/-- ST (R100). -/
def execSt (sr : Reg) (off : Int) (s : State) : Result :=
  .next (s.memWrite (s.pcRel9 off) (s.readReg sr))

/-- STI (R101): one read, the pointer, then one write. -/
def execSti (sr : Reg) (off : Int) (s : State) : Result :=
  .next (s.memWrite (s.indirect9 off) (s.readReg sr))

/-- STR (R102). -/
def execStr (sr base : Reg) (off : Int) (s : State) : Result :=
  .next (s.memWrite (s.baseRel6 base off) (s.readReg sr))

end Sys2Proof.Machine
end

