-- ==== Sys2Proof/Machine/Unsupported.lean ====
section
/-! DEFINITION. The three unsupported opcodes: each takes the decode fault (R63, R73, R120). -/

namespace Sys2Proof.Machine

/-- Opcode 1000. -/
def execUnsupported1000 (s : State) : Result := .next (s.raiseDecodeFault 0b1000)

/-- Opcode 1001. -/
def execUnsupported1001 (s : State) : Result := .next (s.raiseDecodeFault 0b1001)

/-- Opcode 1101. -/
def execUnsupported1101 (s : State) : Result := .next (s.raiseDecodeFault 0b1101)

end Sys2Proof.Machine
end

