-- ==== Sys2Proof/Machine/Dispatch.lean ====
section
/-! DEFINITION. Parts (d) and (e) of the cycle (R73, R75): each instruction's meaning, in the order of the opcode table,
on the state whose `ir` holds the word and whose `pc` is already incremented. -/

namespace Sys2Proof.Machine

def exec (i : Instr) (s : State) : Host.Outcome State Fault Refusal :=
  match i with
  | .br n z p off => Sys2Proof.Machine.execBr n z p off s
  | .addReg dr sr1 sr2 => Sys2Proof.Machine.execAddReg dr sr1 sr2 s
  | .addImm dr sr1 imm => Sys2Proof.Machine.execAddImm dr sr1 imm s
  | .ld dr off => Sys2Proof.Machine.execLd dr off s
  | .st sr off => Sys2Proof.Machine.execSt sr off s
  | .jsr off => Sys2Proof.Machine.execJsr off s
  | .andReg dr sr1 sr2 => Sys2Proof.Machine.execAndReg dr sr1 sr2 s
  | .andImm dr sr1 imm => Sys2Proof.Machine.execAndImm dr sr1 imm s
  | .ldr dr base off => Sys2Proof.Machine.execLdr dr base off s
  | .str sr base off => Sys2Proof.Machine.execStr sr base off s
  | .unsupported1000 => Sys2Proof.Machine.execUnsupported1000 s
  | .unsupported1001 => Sys2Proof.Machine.execUnsupported1001 s
  | .ldi dr off => Sys2Proof.Machine.execLdi dr off s
  | .sti sr off => Sys2Proof.Machine.execSti sr off s
  | .ret => Sys2Proof.Machine.execRet s
  | .unsupported1101 => Sys2Proof.Machine.execUnsupported1101 s
  | .lea dr off => Sys2Proof.Machine.execLea dr off s
  | .trap vec => Sys2Proof.Machine.execTrap vec s

end Sys2Proof.Machine
end

