-- ==== Sys2Proof/Machine/Step.lean ====
section
/-! DEFINITION. One step: one cycle while RUNNING (R70, R78), nothing in the terminal states (R77). -/

namespace Sys2Proof.Machine

/-- The step. In HALTED and FAULTED the core takes no cycle and no state changes (R77): the step answers the same state.
DESIGN CHOICE, safe; log entry 5. -/
def step (s : State) : Host.Outcome State Fault Refusal :=
  match s.run with
  | .running => finishCycle (exec (decode s.beginCycle.ir) s.beginCycle)
  | .halted => terminalStep s
  | .faulted => terminalStep s

/-- `s` with the instruction word `w` where the next fetch reads (R72): the cell at the PC, or the device register that
answers at the PC. Log entry 3 says how a program comes to run from reset. -/
def State.withFetchWord (s : State) (nbits w : Nat) : State :=
  s.placeWord s.pc (BitVec.ofNat 16 (w % 2 ^ nbits))

end Sys2Proof.Machine
end

