-- ==== Sys2Proof/Safety.lean ====
section
/-! DEFINITION. What every state of a run satisfies (R15, R26, R120, R150), what the tables of the spec say of each
instruction (R10, R13, R16), and the vocabulary of frames. -/

namespace Sys2Proof.Machine

/-- The invariants of R26, with the canonical form of memory and what the fault record holds (R120, R150). -/
structure State.Inv (s : State) : Prop where
  /-- Memory is in its canonical form. -/
  memWf : s.mem.wf
  /-- R26 (i): exactly one of N, Z, P is set. -/
  oneFlag : (s.n = true ∧ s.z = false ∧ s.p = false) ∨ (s.n = false ∧ s.z = true ∧ s.p = false) ∨
    (s.n = false ∧ s.z = false ∧ s.p = true)
  /-- R26 (ii): MCR[15] = 1 in RUNNING. -/
  poweredWhileRunning : s.run = .running → s.mcr[15] = true
  /-- R150: in HALTED the MCR holds the word that cleared the power bit. -/
  unpoweredWhenHalted : s.run = .halted → s.mcr[15] = false
  /-- R26 (iv): in HALTED and FAULTED no character is left pending. -/
  readyWhenStopped : s.run ≠ .running → s.dsr[15] = true
  /-- R21: no record is held outside FAULTED. -/
  noRecordUnlessFaulted : s.run ≠ .faulted → s.fault = none
  /-- R120, R150: in FAULTED the record is the opcode of the word in `ir`, one of 8, 9 and 13, with the PC. -/
  recordWhenFaulted : s.run = .faulted →
    s.fault = some ⟨s.ir.extractLsb' 12 4, s.pc⟩ ∧ (s.ir.extractLsb' 12 4).toNat ∈ [8, 9, 13]

/-- The address names a device register (R38). -/
abbrev isDevice (a : Word) : Prop := a = 0xFE04 ∨ a = 0xFE06 ∨ a = 0xFFFE

/-- Every general register but those listed is unchanged. -/
def SameRegsExcept (ds : List Reg) (s t : State) : Prop := ∀ r : Reg, r ∉ ds → t.readReg r = s.readReg r

/-- The condition codes are unchanged. -/
def SameFlags (s t : State) : Prop := t.n = s.n ∧ t.z = s.z ∧ t.p = s.p

/-- Every cell of the memory array is unchanged, the shadowed ones too. -/
def SameMemory (s t : State) : Prop := ∀ a : Word, t.mem.read a.toNat = s.mem.read a.toNat

/-- The three device registers are unchanged. -/
def SameDevices (s t : State) : Prop := t.dsr = s.dsr ∧ t.ddr = s.ddr ∧ t.mcr = s.mcr

/-- The IR and the output stream are unchanged: no instruction writes either (R14, R22). -/
def SameIrOut (s t : State) : Prop := t.ir = s.ir ∧ t.out = s.out

/-- The run state and the fault record are unchanged: no handler touches them (R73, R76). -/
def SameRun (s t : State) : Prop := t.run = s.run ∧ t.fault = s.fault

/-- N, Z and P are those of the sign of `v` (R15, R74), by the signed reading of the word. -/
def FlagsOfSign (v : Word) (t : State) : Prop :=
  (t.n = true ↔ v.toInt < 0) ∧ (t.z = true ↔ v.toInt = 0) ∧ (t.p = true ↔ 0 < v.toInt)

/-- The general register an instruction writes (R10): DR, or x[7] for JSR and TRAP. -/
def destOf : Instr → Option Reg
  | .addReg dr _ _ => some dr
  | .addImm dr _ _ => some dr
  | .andReg dr _ _ => some dr
  | .andImm dr _ _ => some dr
  | .ld dr _ => some dr
  | .ldi dr _ => some dr
  | .ldr dr _ _ => some dr
  | .lea dr _ => some dr
  | .jsr _ => some 7
  | .trap _ => some 7
  | .st _ _ => none
  | .sti _ _ => none
  | .str _ _ _ => none
  | .br _ _ _ _ => none
  | .ret => none
  | .unsupported1000 => none
  | .unsupported1001 => none
  | .unsupported1101 => none

/-- The instruction is CC-affecting (R16): ADD, AND, LD, LDI, LDR, LEA. -/
def affectsFlags : Instr → Bool
  | .addReg _ _ _ => true
  | .addImm _ _ _ => true
  | .andReg _ _ _ => true
  | .andImm _ _ _ => true
  | .ld _ _ => true
  | .ldi _ _ => true
  | .ldr _ _ _ => true
  | .lea _ _ => true
  | .jsr _ => false
  | .trap _ => false
  | .st _ _ => false
  | .sti _ _ => false
  | .str _ _ _ => false
  | .br _ _ _ _ => false
  | .ret => false
  | .unsupported1000 => false
  | .unsupported1001 => false
  | .unsupported1101 => false

/-- The address and the word that a store writes, in the state it executes in (R103); none for every other instruction. -/
def storeOf (s : State) : Instr → Option (Word × Word)
  | .st sr off => some (s.pcRel9 off, s.readReg sr)
  | .sti sr off => some (s.indirect9 off, s.readReg sr)
  | .str sr base off => some (s.baseRel6 base off, s.readReg sr)
  | .addReg _ _ _ => none
  | .addImm _ _ _ => none
  | .andReg _ _ _ => none
  | .andImm _ _ _ => none
  | .ld _ _ => none
  | .ldi _ _ => none
  | .ldr _ _ _ => none
  | .lea _ _ => none
  | .jsr _ => none
  | .trap _ => none
  | .br _ _ _ _ => none
  | .ret => none
  | .unsupported1000 => none
  | .unsupported1001 => none
  | .unsupported1101 => none

/-- The destination and the address of the data read of a load, in the state it executes in (R94); none for every other
instruction. -/
def loadOf (s : State) : Instr → Option (Reg × Word)
  | .st _ _ => none
  | .sti _ _ => none
  | .str _ _ _ => none
  | .addReg _ _ _ => none
  | .addImm _ _ _ => none
  | .andReg _ _ _ => none
  | .andImm _ _ _ => none
  | .ld dr off => some (dr, s.pcRel9 off)
  | .ldi dr off => some (dr, s.indirect9 off)
  | .ldr dr base off => some (dr, s.baseRel6 base off)
  | .lea _ _ => none
  | .jsr _ => none
  | .trap _ => none
  | .br _ _ _ _ => none
  | .ret => none
  | .unsupported1000 => none
  | .unsupported1001 => none
  | .unsupported1101 => none

/-- The PC after each instruction, in the state it executes in, whose `pc` is A + 1 (the table of R13). -/
def pcAfter (s : State) : Instr → Word
  | .st _ _ => s.pc
  | .sti _ _ => s.pc
  | .str _ _ _ => s.pc
  | .addReg _ _ _ => s.pc
  | .addImm _ _ _ => s.pc
  | .andReg _ _ _ => s.pc
  | .andImm _ _ _ => s.pc
  | .ld _ _ => s.pc
  | .ldi _ _ => s.pc
  | .ldr _ _ _ => s.pc
  | .lea _ _ => s.pc
  | .jsr off => s.pc + sext 11 off
  | .trap v => s.memRead (zext8 v)
  | .br n z p off =>
    if (n = true ∧ s.n = true) ∨ (z = true ∧ s.z = true) ∨ (p = true ∧ s.p = true) then s.pc + sext 9 off else s.pc
  | .ret => s.readReg 7
  | .unsupported1000 => s.pc
  | .unsupported1001 => s.pc
  | .unsupported1101 => s.pc

/-- `t` is `s` with `v` in DR and the flags of the sign of `v`, and nothing else changed: what ADD, AND, LD, LDI, LDR and
LEA leave (R75). -/
def WritesDest (dr : Reg) (v : Word) (s t : State) : Prop :=
  t.readReg dr = v ∧ FlagsOfSign v t ∧ SameRegsExcept [dr] s t ∧ t.pc = s.pc ∧ SameMemory s t ∧ SameDevices s t ∧
    SameIrOut s t ∧ SameRun s t

/-- `t` is `s` with the word `v` stored at the address `a`, and nothing else changed: what ST, STI and STR leave (R33,
R103). A read at `a` gives `v`; every other location reads as before, but the DSR after a store to the DDR, which is
0x0000 (D10); no cell of the memory array but `mem[a]` changes, and none at all when `a` names a device (R34). -/
def StoresAt (a v : Word) (s t : State) : Prop :=
  t.memRead a = v ∧ (a = 0xFE06 → t.dsr = 0x0000) ∧
    (∀ b : Word, b ≠ a → ¬(a = 0xFE06 ∧ b = 0xFE04) → t.memRead b = s.memRead b) ∧
    (∀ b : Word, (b ≠ a ∨ isDevice a) → t.mem.read b.toNat = s.mem.read b.toNat) ∧
    SameRegsExcept [] s t ∧ SameFlags s t ∧ t.pc = s.pc ∧ SameIrOut s t ∧ SameRun s t

/-- `t` is `s` with the PC at `target` and only the registers of `ds` possibly changed: what BR, JSR, RET and TRAP leave. -/
def JumpsTo (target : Word) (ds : List Reg) (s t : State) : Prop :=
  t.pc = target ∧ SameRegsExcept ds s t ∧ SameFlags s t ∧ SameMemory s t ∧ SameDevices s t ∧ SameIrOut s t ∧ SameRun s t

/-- `t` is `s` stopped by the decode fault (R120): FAULTED, with the opcode and the PC recorded, nothing else changed. -/
def TakesDecodeFault (op : BitVec 4) (s t : State) : Prop :=
  t.run = .faulted ∧ t.fault = some ⟨op, s.pc⟩ ∧ t.pc = s.pc ∧ SameRegsExcept [] s t ∧ SameFlags s t ∧ SameMemory s t ∧
    SameDevices s t ∧ SameIrOut s t

end Sys2Proof.Machine
end

