-- ==== Sys2Proof/Certificates/Slice0/Obligations.lean ====
section
/-! DEFINITION. The statements for the provers, each with the rule of spec/ it formalises. The frames and tables they are
written in stand in Sys2Proof/Safety.lean. -/

open Sys2Proof Sys2Proof.Machine

/-! ### Encoding -/

/-- The words that R66 writes out decode to the instructions they stand for, with one of each remaining form: LD, LDI, ST,
STI, AND, and the three unsupported opcodes. The opcode numbers are the spec's decision D1 (log entry 9). -/
def Obligations.DecodeOfWrittenWords : Prop :=
  decode 0x1001 = .addReg 0 0 1 ∧ decode 0x1025 = .addImm 0 0 5 ∧ decode 0x5249 = .andReg 1 1 1 ∧
  decode 0x52B0 = .andImm 1 2 (-16) ∧ decode 0x25FF = .ld 2 (-1) ∧ decode 0xA202 = .ldi 1 2 ∧
  decode 0xE000 = .lea 0 0 ∧ decode 0x3002 = .st 0 2 ∧ decode 0xB1FF = .sti 0 (-1) ∧
  decode 0x62BF = .ldr 1 2 (-1) ∧ decode 0x7283 = .str 1 2 3 ∧ decode 0x03FD = .br false false true (-3) ∧
  decode 0x4802 = .jsr 2 ∧ decode 0x4C00 = .jsr (-1024) ∧ decode 0xC1C0 = .ret ∧ decode 0xF025 = .trap 0x25 ∧
  decode 0x8000 = .unsupported1000 ∧ decode 0x927F = .unsupported1001 ∧ decode 0xDFFF = .unsupported1101

/-- Decode undoes encode on every well-formed instruction, at every value of every operand (R52, R53). -/
def Obligations.DecodeEncodeRoundTrip : Prop :=
  ∀ i : Instr, i.wellFormed = true → decode (encode i) = i

/-- Every word decodes to an instruction whose operands lie in the ranges of R53. -/
def Obligations.DecodeGivesWellFormed : Prop :=
  ∀ w : Word, (decode w).wellFormed = true

/-- Encoding what was decoded gives the word back on every bit that is not ignored: the spec's decisions D3 to D5 (R57, log
entry 10). -/
def Obligations.EncodeDecodeKeepsExaminedBits : Prop :=
  ∀ w : Word, encode (decode w) &&& ~~~(decode w).ignoredBits = w &&& ~~~(decode w).ignoredBits

/-- Words that differ in ignored bits only decode to the same instruction: the spec's decision D5 (R57), and D3 and D4 for
RET and JSR (log entry 10). -/
def Obligations.IgnoredBitsHaveNoEffect : Prop :=
  ∀ w w' : Word, w &&& ~~~(decode w).ignoredBits = w' &&& ~~~(decode w).ignoredBits → decode w' = decode w

/-- Every word belongs to the row of the instruction it decodes to, and to no other row (R55). -/
def Obligations.EveryWordInExactlyItsRow : Prop :=
  (∀ w : Word, w &&& (decode w).rowMask = (decode w).rowMatch) ∧
  ∀ (w : Word) (i : Instr), w &&& i.rowMask = i.rowMatch →
    i.rowMask = (decode w).rowMask ∧ i.rowMatch = (decode w).rowMatch

/-- `sext_N` copies bits N-1 to 0 and sets bits 15 to N to bit N-1, for the widths of R7; `zext_8` clears bits 15 to 8. -/
def Obligations.ExtensionPrimitives : Prop :=
  (∀ n ∈ [5, 6, 9, 11], ∀ (v : Int) (k : Nat), k < 16 →
    (sext n v).getLsbD k = (BitVec.ofInt n v).getLsbD (if k < n then k else n - 1)) ∧
  ∀ (v k : Nat), k < 16 → (zext8 v).getLsbD k = (decide (k < 8) && v.testBit k)

/-- An operand in the range of its field keeps its value through `sext_N` and `zext_8` (R53, the source's round trip). -/
def Obligations.ExtensionKeepsValue : Prop :=
  (∀ v : Int, -16 ≤ v → v ≤ 15 → (sext 5 v).toInt = v) ∧
  (∀ v : Int, -32 ≤ v → v ≤ 31 → (sext 6 v).toInt = v) ∧
  (∀ v : Int, -256 ≤ v → v ≤ 255 → (sext 9 v).toInt = v) ∧
  (∀ v : Int, -1024 ≤ v → v ≤ 1023 → (sext 11 v).toInt = v) ∧
  ∀ v : Nat, v ≤ 255 → (zext8 v).toNat = v

/-! ### The instructions: encoding, effect, frame; each answers a next state from every state -/

/-- ADD, register form (R80): encoding, result modulo 65536, flags of the result, nothing else changed. Here and in the
statements below the opcode number is the spec's decision D1, and the place of n, z, p, SR and BaseR its D7 (log entry 9). -/
def Obligations.AddRegisterForm : Prop :=
  (∀ w : Word, w.extractLsb' 12 4 = 0b0001 → w[5] = false →
    decode w = .addReg (w.extractLsb' 9 3).toFin (w.extractLsb' 6 3).toFin (w.extractLsb' 0 3).toFin) ∧
  ∀ (dr sr1 sr2 : Reg) (s : State), ∃ t, exec (.addReg dr sr1 sr2) s = .next t ∧
    WritesDest dr (s.readReg sr1 + s.readReg sr2) s t

/-- ADD, immediate form (R81). -/
def Obligations.AddImmediateForm : Prop :=
  (∀ w : Word, w.extractLsb' 12 4 = 0b0001 → w[5] = true →
    decode w = .addImm (w.extractLsb' 9 3).toFin (w.extractLsb' 6 3).toFin (w.extractLsb' 0 5).toInt) ∧
  ∀ (dr sr1 : Reg) (imm5 : Int) (s : State), ∃ t, exec (.addImm dr sr1 imm5) s = .next t ∧
    WritesDest dr (s.readReg sr1 + sext 5 imm5) s t

/-- AND, register form (R82). -/
def Obligations.AndRegisterForm : Prop :=
  (∀ w : Word, w.extractLsb' 12 4 = 0b0101 → w[5] = false →
    decode w = .andReg (w.extractLsb' 9 3).toFin (w.extractLsb' 6 3).toFin (w.extractLsb' 0 3).toFin) ∧
  ∀ (dr sr1 sr2 : Reg) (s : State), ∃ t, exec (.andReg dr sr1 sr2) s = .next t ∧
    WritesDest dr (s.readReg sr1 &&& s.readReg sr2) s t

/-- AND, immediate form (R83): the immediate is sign-extended before the AND. -/
def Obligations.AndImmediateForm : Prop :=
  (∀ w : Word, w.extractLsb' 12 4 = 0b0101 → w[5] = true →
    decode w = .andImm (w.extractLsb' 9 3).toFin (w.extractLsb' 6 3).toFin (w.extractLsb' 0 5).toInt) ∧
  ∀ (dr sr1 : Reg) (imm5 : Int) (s : State), ∃ t, exec (.andImm dr sr1 imm5) s = .next t ∧
    WritesDest dr (s.readReg sr1 &&& sext 5 imm5) s t

/-- LD (R90): the word at `pc + sext_9(PCoffset9)`, through the access layer. -/
def Obligations.LoadPcRelative : Prop :=
  (∀ w : Word, w.extractLsb' 12 4 = 0b0010 →
    decode w = .ld (w.extractLsb' 9 3).toFin (w.extractLsb' 0 9).toInt) ∧
  ∀ (dr : Reg) (off : Int) (s : State), ∃ t, exec (.ld dr off) s = .next t ∧
    WritesDest dr (s.memRead (s.pc + sext 9 off)) s t

/-- LDI (R91): two reads, both through the access layer. -/
def Obligations.LoadIndirect : Prop :=
  (∀ w : Word, w.extractLsb' 12 4 = 0b1010 →
    decode w = .ldi (w.extractLsb' 9 3).toFin (w.extractLsb' 0 9).toInt) ∧
  ∀ (dr : Reg) (off : Int) (s : State), ∃ t, exec (.ldi dr off) s = .next t ∧
    WritesDest dr (s.memRead (s.memRead (s.pc + sext 9 off))) s t

/-- LDR (R92): the word at `x[BaseR] + sext_6(offset6)`; DR may be BaseR. -/
def Obligations.LoadBaseOffset : Prop :=
  (∀ w : Word, w.extractLsb' 12 4 = 0b0110 →
    decode w = .ldr (w.extractLsb' 9 3).toFin (w.extractLsb' 6 3).toFin (w.extractLsb' 0 6).toInt) ∧
  ∀ (dr base : Reg) (off : Int) (s : State), ∃ t, exec (.ldr dr base off) s = .next t ∧
    WritesDest dr (s.memRead (s.readReg base + sext 6 off)) s t

/-- LEA (R93): the address itself, and the flags of its sign. -/
def Obligations.LoadEffectiveAddress : Prop :=
  (∀ w : Word, w.extractLsb' 12 4 = 0b1110 →
    decode w = .lea (w.extractLsb' 9 3).toFin (w.extractLsb' 0 9).toInt) ∧
  ∀ (dr : Reg) (off : Int) (s : State), ∃ t, exec (.lea dr off) s = .next t ∧
    WritesDest dr (s.pc + sext 9 off) s t

/-- ST (R100). -/
def Obligations.StorePcRelative : Prop :=
  (∀ w : Word, w.extractLsb' 12 4 = 0b0011 →
    decode w = .st (w.extractLsb' 9 3).toFin (w.extractLsb' 0 9).toInt) ∧
  ∀ (sr : Reg) (off : Int) (s : State), ∃ t, exec (.st sr off) s = .next t ∧
    StoresAt (s.pc + sext 9 off) (s.readReg sr) s t

/-- STI (R101): the address is the word read at `pc + sext_9(PCoffset9)` before the write. -/
def Obligations.StoreIndirect : Prop :=
  (∀ w : Word, w.extractLsb' 12 4 = 0b1011 →
    decode w = .sti (w.extractLsb' 9 3).toFin (w.extractLsb' 0 9).toInt) ∧
  ∀ (sr : Reg) (off : Int) (s : State), ∃ t, exec (.sti sr off) s = .next t ∧
    StoresAt (s.memRead (s.pc + sext 9 off)) (s.readReg sr) s t

/-- STR (R102). -/
def Obligations.StoreBaseOffset : Prop :=
  (∀ w : Word, w.extractLsb' 12 4 = 0b0111 →
    decode w = .str (w.extractLsb' 9 3).toFin (w.extractLsb' 6 3).toFin (w.extractLsb' 0 6).toInt) ∧
  ∀ (sr base : Reg) (off : Int) (s : State), ∃ t, exec (.str sr base off) s = .next t ∧
    StoresAt (s.readReg base + sext 6 off) (s.readReg sr) s t

/-- BR (R110): taken when some requested flag is set. -/
def Obligations.ConditionalBranch : Prop :=
  (∀ w : Word, w.extractLsb' 12 4 = 0b0000 →
    decode w = .br w[11] w[10] w[9] (w.extractLsb' 0 9).toInt) ∧
  ∀ (n z p : Bool) (off : Int) (s : State), ∃ t, exec (.br n z p off) s = .next t ∧
    JumpsTo (if (n = true ∧ s.n = true) ∨ (z = true ∧ s.z = true) ∨ (p = true ∧ s.p = true)
      then s.pc + sext 9 off else s.pc) [] s t

/-- JSR (spec/44_control.md section 2). That bit 11 is ignored is the spec's decision D4 (log entry 10). -/
def Obligations.JumpToSubroutine : Prop :=
  (∀ w : Word, w.extractLsb' 12 4 = 0b0100 → decode w = .jsr (w.extractLsb' 0 11).toInt) ∧
  ∀ (off : Int) (s : State), ∃ t, exec (.jsr off) s = .next t ∧ t.readReg 7 = s.pc ∧
    JumpsTo (s.pc + sext 11 off) [7] s t

/-- RET (spec/44_control.md section 3). That every word of opcode 1100 is RET is the spec's decision D3 (log entry 10). -/
def Obligations.ReturnThroughRegisterSeven : Prop :=
  (∀ w : Word, w.extractLsb' 12 4 = 0b1100 → decode w = .ret) ∧
  ∀ s : State, ∃ t, exec .ret s = .next t ∧ JumpsTo (s.readReg 7) [] s t

/-- TRAP (spec/44_control.md section 4). That the vector is zero-extended is the spec's decision D6 (log entry 11). -/
def Obligations.TrapThroughVectorTable : Prop :=
  (∀ w : Word, w.extractLsb' 12 4 = 0b1111 → decode w = .trap (w.extractLsb' 0 8).toNat) ∧
  ∀ (vec : Nat) (s : State), ∃ t, exec (.trap vec) s = .next t ∧ t.readReg 7 = s.pc ∧
    JumpsTo (s.memRead (zext8 vec)) [7] s t

/-- The three unsupported opcodes take the decode fault (spec/60_exceptions.md section 1). That the incremented PC is
recorded is the spec's decision D15 (log entry 14), that 1001 faults D2 (log entry 9). -/
def Obligations.UnsupportedOpcodesTakeFault : Prop :=
  (∀ w : Word, w.extractLsb' 12 4 = 0b1000 → decode w = .unsupported1000) ∧
  (∀ w : Word, w.extractLsb' 12 4 = 0b1001 → decode w = .unsupported1001) ∧
  (∀ w : Word, w.extractLsb' 12 4 = 0b1101 → decode w = .unsupported1101) ∧
  ∀ s : State,
    (∃ t, exec .unsupported1000 s = .next t ∧ TakesDecodeFault 8 s t) ∧
    (∃ t, exec .unsupported1001 s = .next t ∧ TakesDecodeFault 9 s t) ∧
    ∃ t, exec .unsupported1101 s = .next t ∧ TakesDecodeFault 13 s t

/-! ### Memory and devices -/

/-- `MemRead` (R32): the three decoded addresses answer their device register, every other its cell. -/
def Obligations.MemReadAtEachAddress : Prop :=
  ∀ s : State, s.memRead 0xFE04 = s.dsr ∧ s.memRead 0xFE06 = s.ddr ∧ s.memRead 0xFFFE = s.mcr ∧
    ∀ a : Word, ¬isDevice a → s.memRead a = s.mem.read a.toNat

/-- `MemWrite` (spec/20_memory.md section 2). That a store to the DDR leaves 0x0000 in the DSR is the spec's decision D10
(log entry 13). -/
def Obligations.MemWriteAtEachAddress : Prop :=
  ∀ (s : State) (a v : Word), StoresAt a v s (s.memWrite a v) ∧
    ∀ b : Word, (s.memWrite a v).memRead b =
      if b = a then v else if a = 0xFE06 ∧ b = 0xFE04 then 0x0000 else s.memRead b

/-- Only the store an instruction makes changes memory or a device register (R37, R103): for every instruction, the
location it stores to, computed by `storeOf`, and the DSR when that is the DDR, are all that can differ. The DSR's value
there is the spec's decision D10 (log entry 13). -/
def Obligations.OnlyStoresChangeMemory : Prop :=
  ∀ (i : Instr) (s : State), ∃ t, exec i s = .next t ∧
    (∀ a v : Word, storeOf s i = some (a, v) → StoresAt a v s t) ∧
    (storeOf s i = none → SameMemory s t ∧ SameDevices s t)

/-- A store to the next instruction's address is what the next cycle fetches (spec/20_memory.md section 6). -/
def Obligations.StoreSeenByNextFetch : Prop :=
  ∀ (s : State) (sr : Reg), s.run = .running → s.mcr[15] = true → s.displayFlush.memRead s.pc = encode (.st sr 0) →
    ¬isDevice (s.pc + 1) →
    ∃ t u, step s = .next t ∧ t.run = .running ∧ step t = .next u ∧ u.ir = s.readReg sr

/-- The cells behind the three device addresses are never read and never written (spec/20_memory.md section 2): machines
that differ in those cells alone step to machines that differ in those cells alone, which keep what they held. That the
fetch is decoded too is the spec's decision D8 (log entry 12). -/
def Obligations.ShadowedCellsUnreachable : Prop :=
  ∀ (s t : State) (m : Memory), (∀ a : Word, ¬isDevice a → m.read a.toNat = s.mem.read a.toNat) →
    step s = .next t →
    ∃ m' : Memory, step { s with mem := m } = .next { t with mem := m' } ∧
      (∀ a : Word, ¬isDevice a → m'.read a.toNat = t.mem.read a.toNat) ∧
      ∀ a : Word, isDevice a → m'.read a.toNat = m.read a.toNat ∧ t.mem.read a.toNat = s.mem.read a.toNat

/-! ### Flags -/

/-- `setcc` (R74): by bit 15 and by being zero; exactly one flag is set; nothing else changes. -/
def Obligations.SetccByValue : Prop :=
  ∀ (s : State) (v : Word),
    (v[15] = true → (s.setcc v).n = true ∧ (s.setcc v).z = false ∧ (s.setcc v).p = false) ∧
    (v = 0x0000 → (s.setcc v).n = false ∧ (s.setcc v).z = true ∧ (s.setcc v).p = false) ∧
    (v[15] = false → v ≠ 0x0000 → (s.setcc v).n = false ∧ (s.setcc v).z = false ∧ (s.setcc v).p = true) ∧
    FlagsOfSign v (s.setcc v) ∧
    s.setcc v = { s with n := (s.setcc v).n, z := (s.setcc v).z, p := (s.setcc v).p }

/-! ### The cycle -/

/-- A step of a RUNNING core runs the decoded instruction: the display flush, the fetch through the access layer, the
incremented PC, the instruction's meaning, and then the power check unless the decode fault stopped the core
(spec/40_instruction_cycle.md section 2). -/
def Obligations.StepRunsDecodedInstruction : Prop :=
  ∀ (s : State) (i : Instr) (t : State), s.run = .running →
    decode (s.displayFlush.memRead s.pc) = i →
    exec i { s.displayFlush with ir := s.displayFlush.memRead s.pc, pc := s.pc + 1 } = .next t →
    step s = .next (if t.run = .running ∧ t.mcr[15] = false then { t with run := .halted } else t)

/-- The display flush (spec/40_instruction_cycle.md section 1, part (a)). That bit 15 alone is tested and that 0x8000 is
written are the spec's decisions D9 and D10 (log entry 13). -/
def Obligations.DisplayFlushEmitsLowByte : Prop :=
  ∀ s : State,
    s.displayFlush.out = (if s.dsr[15] = true then s.out else s.out ++ [s.ddr.extractLsb' 0 8]) ∧
    s.displayFlush.dsr = (if s.dsr[15] = true then s.dsr else 0x8000) ∧
    s.displayFlush = { s with out := s.displayFlush.out, dsr := s.displayFlush.dsr }

/-- Every instruction and every step answers a next state (R149): no handler faults, and a RUNNING core is never stuck. -/
def Obligations.RunningCoreIsNeverStuck : Prop :=
  (∀ (i : Instr) (s : State), ∃ t, exec i s = .next t) ∧
  ∀ s : State, s.run = .running → ∃ t, step s = .next t

/-- HALTED and FAULTED are absorbing (R77): however many steps are taken, no state changes. That a step of a stopped core
answers the same state is the model's choice (log entry 5). -/
def Obligations.TerminalStatesAbsorb : Prop :=
  ∀ (s : State) (k : Nat), s.run = .halted ∨ s.run = .faulted → core.run k s = .next s

/-- The power check (spec/40_instruction_cycle.md section 1, part (f)): a powered core halts exactly when the instruction
of the cycle stored a word with bit 15 = 0 to 0xFFFE, that instruction completes, and the MCR holds that word. That the
check stands at the end of the cycle is the spec's decision D20 (log entry 15). -/
def Obligations.HaltsExactlyOnPowerOff : Prop :=
  ∀ s : State, s.run = .running → s.mcr[15] = true →
    ∃ t, step s = .next t ∧
      (t.run = .halted ↔ ∃ v : Word, storeOf s.beginCycle (decode s.beginCycle.ir) = some (0xFFFE, v) ∧ v[15] = false) ∧
      (t.run = .halted ↔ t.mcr[15] = false) ∧
      ∀ v : Word, storeOf s.beginCycle (decode s.beginCycle.ir) = some (0xFFFE, v) → t.mcr = v

/-- The decode fault in a whole step (spec/60_exceptions.md section 1): a RUNNING core whose fetched word has opcode 8, 9
or 13 stops in FAULTED with the record, the word in `ir` and the PC incremented; the flush has been made, and nothing else
has changed; any other word does not fault. That the recorded PC is the incremented one is the spec's decision D15
(log entry 14). -/
def Obligations.FaultsExactlyOnUnsupportedOpcode : Prop :=
  ∀ (s : State) (w : Word), s.run = .running → s.displayFlush.memRead s.pc = w →
    ∃ t, step s = .next t ∧
      (t.run = .faulted ↔ (w.extractLsb' 12 4).toNat ∈ [8, 9, 13]) ∧
      ((w.extractLsb' 12 4).toNat ∈ [8, 9, 13] →
        t = { s.displayFlush with ir := w, pc := s.pc + 1, run := .faulted, fault := some ⟨w.extractLsb' 12 4, s.pc + 1⟩ }) ∧
      ((w.extractLsb' 12 4).toNat ∉ [8, 9, 13] → t.fault = s.fault)

/-- The PC after a cycle, for every instruction (the table of spec/10_state.md section 2); on an unsupported opcode the core is
FAULTED. TRAP's zero-extended vector is the spec's decision D6 (log entry 11). -/
def Obligations.PcAfterEveryInstruction : Prop :=
  ∀ (s : State) (w : Word), s.run = .running → s.displayFlush.memRead s.pc = w →
    ∃ t, step s = .next t ∧
      t.pc = pcAfter { s.displayFlush with ir := w, pc := s.pc + 1 } (decode w) ∧
      (decode w = .unsupported1000 ∨ decode w = .unsupported1001 ∨ decode w = .unsupported1101 → t.run = .faulted)

/-- The flags after a cycle, for every instruction (spec/10_state.md section 4): a CC-affecting one leaves those of the sign
of its destination's new value, so that exactly one is set; every other, the decode fault among them, leaves them as they
were before the cycle. -/
def Obligations.FlagsAfterEveryInstruction : Prop :=
  ∀ (s : State) (i : Instr), s.run = .running → decode s.beginCycle.ir = i →
    ∃ t, step s = .next t ∧
      (affectsFlags i = true → ∃ dr, destOf i = some dr ∧ FlagsOfSign (t.readReg dr) t) ∧
      (affectsFlags i = false → SameFlags s t)

/-- A cycle changes no general register but the destination of its instruction (spec/10_state.md section 1): DR, or x[7]
for JSR and TRAP; the flush, the fetch, the decode and the power check touch none. -/
def Obligations.OnlyDestinationRegisterChanges : Prop :=
  ∀ s : State, s.run = .running → ∃ t, step s = .next t ∧
    ∀ r : Reg, destOf (decode s.beginCycle.ir) ≠ some r → t.readReg r = s.readReg r

/-- The output stream (spec/10_state.md section 7): a cycle appends the low byte of the DDR when a character was pending at
its start, and nothing otherwise. -/
def Obligations.OutputGrowsOnlyByFlush : Prop :=
  ∀ s : State, s.run = .running → ∃ t, step s = .next t ∧
    t.out = if s.dsr[15] = true then s.out else s.out ++ [s.ddr.extractLsb' 0 8]

/-- The output latency (spec/40_instruction_cycle.md section 3): a character stored to the DDR in one cycle has not left at
its end, with the DSR pending, and leaves in the next, which always follows. The DSR's value 0x0000 is the spec's decision
D10 (log entry 13). -/
def Obligations.StoredCharacterLeavesNextCycle : Prop :=
  ∀ (s : State) (v : Word), s.run = .running → s.mcr[15] = true →
    storeOf s.beginCycle (decode s.beginCycle.ir) = some (0xFE06, v) →
    ∃ t u, step s = .next t ∧ t.run = .running ∧ t.dsr = 0x0000 ∧ t.ddr = v ∧ t.out = s.displayFlush.out ∧
      step t = .next u ∧ u.out = t.out ++ [v.extractLsb' 0 8]

/-- Every load of the DSR finds the display ready (spec/70_reset_and_hazards.md section 3). -/
def Obligations.LoadOfStatusFindsReady : Prop :=
  ∀ (s : State) (dr : Reg), s.run = .running →
    loadOf s.beginCycle (decode s.beginCycle.ir) = some (dr, 0xFE04) →
    ∃ t, step s = .next t ∧ (t.readReg dr)[15] = true

/-- A fetch from a device address fetches the register (spec/20_memory.md section 7): the DSR after the flush has bit 15 set,
and at 0xFE04 and 0xFFFE a register of the value 0x8000 is the decode fault. Nothing is said of the fault for another value:
a DSR of 0xA000 or an MCR of 0xF025 executes. The decoded fetch is the spec's decision D8 (log entry 12), the recorded PC
D15 (log entry 14), the flushed DSR 0x8000 D10 (log entry 13). -/
def Obligations.FetchFromDeviceRegister : Prop :=
  ∀ s : State, s.run = .running →
    (s.pc = 0xFE04 → s.beginCycle.ir[15] = true) ∧
    (s.pc = 0xFE06 → s.beginCycle.ir = s.ddr) ∧
    (s.pc = 0xFFFE → s.beginCycle.ir = s.mcr) ∧
    (s.pc = 0xFE04 → s.dsr = 0x8000 ∨ s.dsr[15] = false →
      ∃ t, step s = .next t ∧ t.run = .faulted ∧ t.fault = some ⟨8, 0xFE05⟩) ∧
    (s.pc = 0xFFFE → s.mcr = 0x8000 →
      ∃ t, step s = .next t ∧ t.run = .faulted ∧ t.fault = some ⟨8, 0xFFFF⟩)

/-- The IR is unobservable (R14): every cycle writes it before it is read. -/
def Obligations.StaleIrUnobservable : Prop :=
  ∀ (s : State) (x : Word), s.run = .running → step { s with ir := x } = step s

/-- No instruction can read the output stream (spec/10_state.md section 7): what has been emitted before changes nothing but
itself. -/
def Obligations.OutputUnobservable : Prop :=
  ∀ (s t : State) (o : List Byte), step s = .next t →
    step { s with out := o ++ s.out } = .next { t with out := o ++ t.out }

/-! ### Control -/

/-- A call and its return (R114, the source's round trip): a cycle that runs JSR or TRAP at A leaves A + 1 in x[7], and any
later cycle that runs RET with that x[7] goes to A + 1, the PC as it stood after the fetch of the call. -/
def Obligations.CallThenReturn : Prop :=
  ∀ (i : Instr) (s u : State), ((∃ off, i = .jsr off) ∨ ∃ vec, i = .trap vec) →
    s.run = .running → decode s.beginCycle.ir = i →
    ∃ t, step s = .next t ∧ t.readReg 7 = s.pc + 1 ∧
      (u.run = .running → decode u.beginCycle.ir = .ret → u.readReg 7 = t.readReg 7 →
        ∃ v, step u = .next v ∧ v.pc = s.pc + 1)

/-- A branch on no flag is a no-op and a branch on all three is always taken when exactly one flag is set
(spec/44_control.md section 1); the words 0x0000 to 0x01FF are such no-ops. -/
def Obligations.BranchNeverAndAlways : Prop :=
  (∀ (w : Word) (s : State), w.toNat < 0x0200 → exec (decode w) s = .next s) ∧
  ∀ (s : State) (off : Int),
    ((s.n = true ∧ s.z = false ∧ s.p = false) ∨ (s.n = false ∧ s.z = true ∧ s.p = false) ∨
      (s.n = false ∧ s.z = false ∧ s.p = true)) →
    ∃ t, exec (.br true true true off) s = .next t ∧ t.pc = s.pc + sext 9 off

/-! ### Reset, and what every step keeps -/

/-- The reset state (spec/10_state.md section 10), for every value of the two open parameters, and at their defaults. The
values of the IR, the DDR and the low bits of the DSR and the MCR are the spec's decision D12, the defaults D13 and D14
(log entries 2, 3, 4). -/
def Obligations.ResetValues : Prop :=
  (∀ (pc : Word) (image : Memory),
    (∀ r : Reg, (State.resetWith pc image).readReg r = 0x0000) ∧
    (State.resetWith pc image).pc = pc ∧ (State.resetWith pc image).ir = 0x0000 ∧
    (State.resetWith pc image).n = false ∧ (State.resetWith pc image).z = true ∧ (State.resetWith pc image).p = false ∧
    (∀ a : Word, (State.resetWith pc image).mem.read a.toNat = image.read a.toNat) ∧
    (State.resetWith pc image).dsr = 0x8000 ∧ (State.resetWith pc image).ddr = 0x0000 ∧
    (State.resetWith pc image).mcr = 0x8000 ∧ (State.resetWith pc image).run = .running ∧
    (State.resetWith pc image).fault = none ∧ (State.resetWith pc image).out = []) ∧
  State.reset.pc = 0x3000 ∧ (∀ r : Reg, State.reset.readReg r = 0x0000) ∧
  ∀ a : Word, State.reset.mem.read a.toNat = 0x0000

/-- Every memory image (a total function from addresses to words, R5) is a memory in canonical form, which is the model's own
(log entry 1). -/
def Obligations.EveryImageHasCanonicalForm : Prop :=
  ∀ image : Word → Word, ∃ m : Memory, m.wf ∧ ∀ a : Word, m.read a.toNat = image a

/-- The invariant holds at reset, for every PC and every canonical image. -/
def Obligations.ResetMeetsInvariant : Prop :=
  (∀ (pc : Word) (image : Memory), image.wf → (State.resetWith pc image).Inv) ∧ State.reset.Inv

/-- Every step keeps the invariant (spec/10_state.md section 11, which the spec marks as derived): canonical memory (log entry
1), one flag, powered while RUNNING, no character pending in a terminal state, and the fault record, whose PC is the spec's
decision D15 (log entry 14). -/
def Obligations.StepKeepsInvariant : Prop :=
  ∀ s t : State, s.Inv → step s = .next t → t.Inv

/-- A word placed for the next fetch is the one the next cycle runs, whatever the address in the PC but 0xFE04, where the
flush may put 0x8000 first (log entries 3 and 16); `decodeTableWord` reads the same instruction. -/
def Obligations.PlacedWordIsFetched : Prop :=
  ∀ (s : State) (w : Word), s.run = .running → s.pc ≠ 0xFE04 →
    (s.withFetchWord 16 w.toNat).beginCycle.ir = w ∧ decodeTableWord 16 w.toNat = some (decode w) ∧
    step (s.withFetchWord 16 w.toNat) = finishCycle (exec (decode w) (s.withFetchWord 16 w.toNat).beginCycle)
end

