-- ==== Sys2Proof/Laws/Encode.lean ====
section
/-! SUPPORT. What each bit of a placed field is: with these, a bit of an encoded word computes. -/

namespace Sys2Proof

@[simp] theorem getElem_placeField {n : Nat} (v : BitVec n) (lo k : Nat) (hk : k < 16) :
    (placeField v lo)[k] = (decide (lo ≤ k) && v.getLsbD (k - lo)) := by
  by_cases hl : k < lo
  · simp [placeField, hl, Nat.not_le.2 hl]
  · simp [placeField, hl, Nat.not_lt.1 hl]

@[simp] theorem getElem_placeReg (r : Reg) (lo k : Nat) (hk : k < 16) :
    (placeReg r lo)[k] = (decide (lo ≤ k) && (BitVec.ofFin r : BitVec 3).getLsbD (k - lo)) :=
  getElem_placeField _ _ _ _

@[simp] theorem getElem_placeSigned (n : Nat) (v : Int) (k : Nat) (hk : k < 16) :
    (placeSigned n v)[k] = (BitVec.ofInt n v).getLsbD k := by
  simp [placeSigned]

@[simp] theorem getElem_placeBit (b : Bool) (lo k : Nat) (hk : k < 16) :
    (placeBit b lo)[k] = (decide (k = lo) && b) := by
  rw [placeBit, getElem_placeField]
  by_cases h : lo ≤ k
  · by_cases e : k = lo
    · subst e; cases b <;> simp
    · have : k - lo ≠ 0 := by omega
      cases b <;> simp [h, e, this, BitVec.getLsbD_one]
  · have e : k ≠ lo := by omega
    simp [h, e]

end Sys2Proof
end

