-- ==== Sys2Proof/Laws/Memory.lean ====
section
/-! SUPPORT. The laws of the memory array: read after write, in every memory, and the canonical form kept. -/

namespace Sys2Proof.Machine

/-! ### Read after insert, erase and write -/

theorem Memory.read_of_forall_ne (m : Memory) (a : Nat) (h : ∀ c ∈ m, c.1 ≠ a) :
    Memory.read m a = Config.unlisted := by
  induction m with
  | nil => rfl
  | cons c m ih =>
    have hc : c.1 ≠ a := h c (by simp)
    simp only [Memory.read, hc, if_false]
    exact ih fun d hd => h d (by simp [hd])

theorem Memory.read_insert_of_ne (m : Memory) (a b : Nat) (v : Word) (h : b ≠ a) :
    Memory.read (Memory.insert m a v) b = Memory.read m b := by
  induction m with
  | nil => simp [Memory.insert, Memory.read, Ne.symm h]
  | cons c m ih =>
    simp only [Memory.insert]
    split
    · simp [Memory.read, Ne.symm h]
    · simp [Memory.read, ih]

theorem Memory.read_insert_self (m : Memory) (a : Nat) (v : Word) (h : ∀ c ∈ m, c.1 ≠ a) :
    Memory.read (Memory.insert m a v) a = v := by
  induction m with
  | nil => simp [Memory.insert, Memory.read]
  | cons c m ih =>
    have hc : c.1 ≠ a := h c (by simp)
    simp only [Memory.insert]
    split
    · simp [Memory.read]
    · simp [Memory.read, hc, ih fun d hd => h d (by simp [hd])]

theorem Memory.mem_erase (m : Memory) (a : Nat) (c : Cell) : c ∈ Memory.erase m a ↔ c ∈ m ∧ c.1 ≠ a := by
  simp [Memory.erase]

theorem Memory.erase_cons (c : Cell) (m : Memory) (a : Nat) :
    Memory.erase (c :: m) a = if c.1 = a then Memory.erase m a else c :: Memory.erase m a := by
  by_cases hc : c.1 = a <;> simp [Memory.erase, hc]

theorem Memory.read_erase_of_ne (m : Memory) (a b : Nat) (h : b ≠ a) :
    Memory.read (Memory.erase m a) b = Memory.read m b := by
  induction m with
  | nil => rfl
  | cons c m ih =>
    rw [Memory.erase_cons]
    split
    next hc => simp [Memory.read, ih, hc, Ne.symm h]
    next => simp [Memory.read, ih]

/-- Read after write, in every memory: the word written at that address, every other cell as before. -/
theorem Memory.read_write (m : Memory) (a b : Nat) (v : Word) :
    Memory.read (Memory.write m a v) b = if b = a then v else Memory.read m b := by
  have gone : ∀ c ∈ Memory.erase m a, c.1 ≠ a := fun c hc => ((Memory.mem_erase m a c).1 hc).2
  by_cases hb : b = a
  · subst hb
    by_cases hv : v = Config.unlisted
    · simp [Memory.write, hv, Memory.read_of_forall_ne _ _ gone]
    · simp [Memory.write, hv, Memory.read_insert_self _ _ _ gone]
  · by_cases hv : v = Config.unlisted
    · simp [Memory.write, hv, hb, Memory.read_erase_of_ne]
    · simp [Memory.write, hv, hb, Memory.read_insert_of_ne, Memory.read_erase_of_ne]

/-! ### The canonical form -/

theorem Memory.wf_nil : Memory.wf [] := by simp [Memory.wf]

theorem Memory.erase_wf (m : Memory) (a : Nat) (h : m.wf) : (Memory.erase m a).wf :=
  ⟨h.1.filter _, fun c hc => h.2 c ((Memory.mem_erase m a c).1 hc).1⟩

theorem Memory.mem_insert (m : Memory) (a : Nat) (v : Word) (c : Cell) :
    c ∈ Memory.insert m a v ↔ c = (a, v) ∨ c ∈ m := by
  induction m with
  | nil => simp [Memory.insert]
  | cons d m ih =>
    simp only [Memory.insert]
    split
    · simp
    · simp only [List.mem_cons, ih]; tauto

theorem Memory.insert_wf (m : Memory) (a : Nat) (v : Word) (h : m.wf) (ha : a < 65536) (hv : v ≠ Config.unlisted)
    (hne : ∀ c ∈ m, c.1 ≠ a) : (Memory.insert m a v).wf := by
  refine ⟨?_, fun c hc => ?_⟩
  · obtain ⟨hs, -⟩ := h
    induction m with
    | nil => simp [Memory.insert]
    | cons d m ih =>
      have hd : d.1 ≠ a := hne d (by simp)
      obtain ⟨hlt, hs⟩ := List.pairwise_cons.1 hs
      simp only [Memory.insert]
      split
      next lt =>
        refine List.pairwise_cons.2 ⟨fun c hc => ?_, List.pairwise_cons.2 ⟨hlt, hs⟩⟩
        rcases List.mem_cons.1 hc with rfl | hc
        · exact lt
        · exact Nat.lt_trans lt (hlt c hc)
      next ge =>
        refine List.pairwise_cons.2 ⟨fun c hc => ?_, ih (fun c hc => hne c (by simp [hc])) hs⟩
        rcases (Memory.mem_insert m a v c).1 hc with rfl | hc
        · exact Nat.lt_of_le_of_ne (Nat.le_of_not_lt ge) hd
        · exact hlt c hc
  · rcases (Memory.mem_insert m a v c).1 hc with rfl | hc
    · exact ⟨ha, hv⟩
    · exact h.2 c hc

/-- A write at an address keeps the canonical form. -/
theorem Memory.write_wf (m : Memory) (a : Nat) (v : Word) (h : m.wf) (ha : a < 65536) : (Memory.write m a v).wf := by
  unfold Memory.write
  split
  next => exact Memory.erase_wf m a h
  next hv =>
    exact Memory.insert_wf _ a v (Memory.erase_wf m a h) ha hv fun c hc => ((Memory.mem_erase m a c).1 hc).2

/-- `MemWrite` keeps the canonical form. -/
theorem State.memWrite_wf (s : State) (a v : Word) (h : s.mem.wf) : (s.memWrite a v).mem.wf := by
  unfold State.memWrite
  split
  next => exact h
  next =>
    split
    next => exact h
    next =>
      split
      next => exact h
      next => exact Memory.write_wf _ _ _ h a.isLt

/-- A loader's placing of a word keeps the canonical form. -/
theorem State.placeWord_wf (s : State) (a v : Word) (h : s.mem.wf) : (s.placeWord a v).mem.wf := by
  unfold State.placeWord
  split
  next => exact h
  next =>
    split
    next => exact h
    next =>
      split
      next => exact h
      next => exact Memory.write_wf _ _ _ h a.isLt

/-- The memory of the reset state is in canonical form. -/
theorem State.reset_wf : State.reset.mem.wf := Memory.wf_nil

end Sys2Proof.Machine
end

