-- ==== Sys2Proof/Laws/State.lean ====
section
/-! SUPPORT. What each update of the state leaves in each field, true by rfl, and what reading a register gives after it. -/

namespace Sys2Proof.Machine

variable (s : State)

/-! ### writeReg -/

@[simp] theorem State.writeReg_pc (r : Reg) (v : Word) : (s.writeReg r v).pc = s.pc := rfl
@[simp] theorem State.writeReg_ir (r : Reg) (v : Word) : (s.writeReg r v).ir = s.ir := rfl
@[simp] theorem State.writeReg_n (r : Reg) (v : Word) : (s.writeReg r v).n = s.n := rfl
@[simp] theorem State.writeReg_z (r : Reg) (v : Word) : (s.writeReg r v).z = s.z := rfl
@[simp] theorem State.writeReg_p (r : Reg) (v : Word) : (s.writeReg r v).p = s.p := rfl
@[simp] theorem State.writeReg_mem (r : Reg) (v : Word) : (s.writeReg r v).mem = s.mem := rfl
@[simp] theorem State.writeReg_dsr (r : Reg) (v : Word) : (s.writeReg r v).dsr = s.dsr := rfl
@[simp] theorem State.writeReg_ddr (r : Reg) (v : Word) : (s.writeReg r v).ddr = s.ddr := rfl
@[simp] theorem State.writeReg_mcr (r : Reg) (v : Word) : (s.writeReg r v).mcr = s.mcr := rfl
@[simp] theorem State.writeReg_run (r : Reg) (v : Word) : (s.writeReg r v).run = s.run := rfl
@[simp] theorem State.writeReg_fault (r : Reg) (v : Word) : (s.writeReg r v).fault = s.fault := rfl
@[simp] theorem State.writeReg_out (r : Reg) (v : Word) : (s.writeReg r v).out = s.out := rfl

/-! ### setcc -/

@[simp] theorem State.setcc_regs (v : Word) : (s.setcc v).regs = s.regs := rfl
@[simp] theorem State.setcc_pc (v : Word) : (s.setcc v).pc = s.pc := rfl
@[simp] theorem State.setcc_ir (v : Word) : (s.setcc v).ir = s.ir := rfl
@[simp] theorem State.setcc_n (v : Word) : (s.setcc v).n = v[15] := rfl
@[simp] theorem State.setcc_z (v : Word) : (s.setcc v).z = decide (v = 0) := rfl
@[simp] theorem State.setcc_p (v : Word) : (s.setcc v).p = (!v[15] && decide (v ≠ 0)) := rfl
@[simp] theorem State.setcc_mem (v : Word) : (s.setcc v).mem = s.mem := rfl
@[simp] theorem State.setcc_dsr (v : Word) : (s.setcc v).dsr = s.dsr := rfl
@[simp] theorem State.setcc_ddr (v : Word) : (s.setcc v).ddr = s.ddr := rfl
@[simp] theorem State.setcc_mcr (v : Word) : (s.setcc v).mcr = s.mcr := rfl
@[simp] theorem State.setcc_run (v : Word) : (s.setcc v).run = s.run := rfl
@[simp] theorem State.setcc_fault (v : Word) : (s.setcc v).fault = s.fault := rfl
@[simp] theorem State.setcc_out (v : Word) : (s.setcc v).out = s.out := rfl

/-! ### writeDest -/

@[simp] theorem State.writeDest_pc (r : Reg) (v : Word) : (s.writeDest r v).pc = s.pc := rfl
@[simp] theorem State.writeDest_ir (r : Reg) (v : Word) : (s.writeDest r v).ir = s.ir := rfl
@[simp] theorem State.writeDest_n (r : Reg) (v : Word) : (s.writeDest r v).n = v[15] := rfl
@[simp] theorem State.writeDest_z (r : Reg) (v : Word) : (s.writeDest r v).z = decide (v = 0) := rfl
@[simp] theorem State.writeDest_p (r : Reg) (v : Word) : (s.writeDest r v).p = (!v[15] && decide (v ≠ 0)) := rfl
@[simp] theorem State.writeDest_mem (r : Reg) (v : Word) : (s.writeDest r v).mem = s.mem := rfl
@[simp] theorem State.writeDest_dsr (r : Reg) (v : Word) : (s.writeDest r v).dsr = s.dsr := rfl
@[simp] theorem State.writeDest_ddr (r : Reg) (v : Word) : (s.writeDest r v).ddr = s.ddr := rfl
@[simp] theorem State.writeDest_mcr (r : Reg) (v : Word) : (s.writeDest r v).mcr = s.mcr := rfl
@[simp] theorem State.writeDest_run (r : Reg) (v : Word) : (s.writeDest r v).run = s.run := rfl
@[simp] theorem State.writeDest_fault (r : Reg) (v : Word) : (s.writeDest r v).fault = s.fault := rfl
@[simp] theorem State.writeDest_out (r : Reg) (v : Word) : (s.writeDest r v).out = s.out := rfl

/-! ### emit -/

@[simp] theorem State.emit_regs (b : Byte) : (s.emit b).regs = s.regs := rfl
@[simp] theorem State.emit_pc (b : Byte) : (s.emit b).pc = s.pc := rfl
@[simp] theorem State.emit_ir (b : Byte) : (s.emit b).ir = s.ir := rfl
@[simp] theorem State.emit_n (b : Byte) : (s.emit b).n = s.n := rfl
@[simp] theorem State.emit_z (b : Byte) : (s.emit b).z = s.z := rfl
@[simp] theorem State.emit_p (b : Byte) : (s.emit b).p = s.p := rfl
@[simp] theorem State.emit_mem (b : Byte) : (s.emit b).mem = s.mem := rfl
@[simp] theorem State.emit_dsr (b : Byte) : (s.emit b).dsr = s.dsr := rfl
@[simp] theorem State.emit_ddr (b : Byte) : (s.emit b).ddr = s.ddr := rfl
@[simp] theorem State.emit_mcr (b : Byte) : (s.emit b).mcr = s.mcr := rfl
@[simp] theorem State.emit_run (b : Byte) : (s.emit b).run = s.run := rfl
@[simp] theorem State.emit_fault (b : Byte) : (s.emit b).fault = s.fault := rfl
@[simp] theorem State.emit_out (b : Byte) : (s.emit b).out = s.out ++ [b] := rfl

/-! ### raiseDecodeFault -/

@[simp] theorem State.raiseDecodeFault_regs (op : BitVec 4) : (s.raiseDecodeFault op).regs = s.regs := rfl
@[simp] theorem State.raiseDecodeFault_pc (op : BitVec 4) : (s.raiseDecodeFault op).pc = s.pc := rfl
@[simp] theorem State.raiseDecodeFault_ir (op : BitVec 4) : (s.raiseDecodeFault op).ir = s.ir := rfl
@[simp] theorem State.raiseDecodeFault_n (op : BitVec 4) : (s.raiseDecodeFault op).n = s.n := rfl
@[simp] theorem State.raiseDecodeFault_z (op : BitVec 4) : (s.raiseDecodeFault op).z = s.z := rfl
@[simp] theorem State.raiseDecodeFault_p (op : BitVec 4) : (s.raiseDecodeFault op).p = s.p := rfl
@[simp] theorem State.raiseDecodeFault_mem (op : BitVec 4) : (s.raiseDecodeFault op).mem = s.mem := rfl
@[simp] theorem State.raiseDecodeFault_dsr (op : BitVec 4) : (s.raiseDecodeFault op).dsr = s.dsr := rfl
@[simp] theorem State.raiseDecodeFault_ddr (op : BitVec 4) : (s.raiseDecodeFault op).ddr = s.ddr := rfl
@[simp] theorem State.raiseDecodeFault_mcr (op : BitVec 4) : (s.raiseDecodeFault op).mcr = s.mcr := rfl
@[simp] theorem State.raiseDecodeFault_run (op : BitVec 4) : (s.raiseDecodeFault op).run = .faulted := rfl
@[simp] theorem State.raiseDecodeFault_fault (op : BitVec 4) : (s.raiseDecodeFault op).fault = some ⟨op, s.pc⟩ := rfl
@[simp] theorem State.raiseDecodeFault_out (op : BitVec 4) : (s.raiseDecodeFault op).out = s.out := rfl

/-! ### linkTo -/

@[simp] theorem State.linkTo_pc (a : Word) : (s.linkTo a).pc = a := rfl
@[simp] theorem State.linkTo_ir (a : Word) : (s.linkTo a).ir = s.ir := rfl
@[simp] theorem State.linkTo_n (a : Word) : (s.linkTo a).n = s.n := rfl
@[simp] theorem State.linkTo_z (a : Word) : (s.linkTo a).z = s.z := rfl
@[simp] theorem State.linkTo_p (a : Word) : (s.linkTo a).p = s.p := rfl
@[simp] theorem State.linkTo_mem (a : Word) : (s.linkTo a).mem = s.mem := rfl
@[simp] theorem State.linkTo_dsr (a : Word) : (s.linkTo a).dsr = s.dsr := rfl
@[simp] theorem State.linkTo_ddr (a : Word) : (s.linkTo a).ddr = s.ddr := rfl
@[simp] theorem State.linkTo_mcr (a : Word) : (s.linkTo a).mcr = s.mcr := rfl
@[simp] theorem State.linkTo_run (a : Word) : (s.linkTo a).run = s.run := rfl
@[simp] theorem State.linkTo_fault (a : Word) : (s.linkTo a).fault = s.fault := rfl
@[simp] theorem State.linkTo_out (a : Word) : (s.linkTo a).out = s.out := rfl

/-! ### returnThroughLink -/

@[simp] theorem State.returnThroughLink_regs : (s.returnThroughLink).regs = s.regs := rfl
@[simp] theorem State.returnThroughLink_pc : (s.returnThroughLink).pc = s.readReg 7 := rfl
@[simp] theorem State.returnThroughLink_ir : (s.returnThroughLink).ir = s.ir := rfl
@[simp] theorem State.returnThroughLink_n : (s.returnThroughLink).n = s.n := rfl
@[simp] theorem State.returnThroughLink_z : (s.returnThroughLink).z = s.z := rfl
@[simp] theorem State.returnThroughLink_p : (s.returnThroughLink).p = s.p := rfl
@[simp] theorem State.returnThroughLink_mem : (s.returnThroughLink).mem = s.mem := rfl
@[simp] theorem State.returnThroughLink_dsr : (s.returnThroughLink).dsr = s.dsr := rfl
@[simp] theorem State.returnThroughLink_ddr : (s.returnThroughLink).ddr = s.ddr := rfl
@[simp] theorem State.returnThroughLink_mcr : (s.returnThroughLink).mcr = s.mcr := rfl
@[simp] theorem State.returnThroughLink_run : (s.returnThroughLink).run = s.run := rfl
@[simp] theorem State.returnThroughLink_fault : (s.returnThroughLink).fault = s.fault := rfl
@[simp] theorem State.returnThroughLink_out : (s.returnThroughLink).out = s.out := rfl

/-! ### fetch -/

@[simp] theorem State.fetch_regs : (s.fetch).regs = s.regs := rfl
@[simp] theorem State.fetch_pc : (s.fetch).pc = s.pc + 1 := rfl
@[simp] theorem State.fetch_ir : (s.fetch).ir = s.memRead s.pc := rfl
@[simp] theorem State.fetch_n : (s.fetch).n = s.n := rfl
@[simp] theorem State.fetch_z : (s.fetch).z = s.z := rfl
@[simp] theorem State.fetch_p : (s.fetch).p = s.p := rfl
@[simp] theorem State.fetch_mem : (s.fetch).mem = s.mem := rfl
@[simp] theorem State.fetch_dsr : (s.fetch).dsr = s.dsr := rfl
@[simp] theorem State.fetch_ddr : (s.fetch).ddr = s.ddr := rfl
@[simp] theorem State.fetch_mcr : (s.fetch).mcr = s.mcr := rfl
@[simp] theorem State.fetch_run : (s.fetch).run = s.run := rfl
@[simp] theorem State.fetch_fault : (s.fetch).fault = s.fault := rfl
@[simp] theorem State.fetch_out : (s.fetch).out = s.out := rfl

/-! ### Reading a register after an update -/

theorem State.readReg_writeReg (r q : Reg) (v : Word) :
    (s.writeReg r v).readReg q = if r = q then v else s.readReg q := by
  simp [State.readReg, State.writeReg, Vector.getElem_set, Fin.ext_iff]

@[simp] theorem State.readReg_writeReg_self (r : Reg) (v : Word) : (s.writeReg r v).readReg r = v := by
  simp [State.readReg_writeReg]

theorem State.readReg_writeReg_of_ne (r q : Reg) (v : Word) (h : q ≠ r) :
    (s.writeReg r v).readReg q = s.readReg q := by
  simp [State.readReg_writeReg, Ne.symm h]

@[simp] theorem State.readReg_setcc (q : Reg) (v : Word) : (s.setcc v).readReg q = s.readReg q := rfl
@[simp] theorem State.readReg_writeDest (r q : Reg) (v : Word) :
    (s.writeDest r v).readReg q = (s.writeReg r v).readReg q := rfl
@[simp] theorem State.readReg_emit (q : Reg) (b : Byte) : (s.emit b).readReg q = s.readReg q := rfl
@[simp] theorem State.readReg_raiseDecodeFault (q : Reg) (op : BitVec 4) :
    (s.raiseDecodeFault op).readReg q = s.readReg q := rfl
@[simp] theorem State.readReg_linkTo (q : Reg) (a : Word) :
    (s.linkTo a).readReg q = (s.writeReg 7 s.pc).readReg q := rfl
@[simp] theorem State.readReg_returnThroughLink (q : Reg) : s.returnThroughLink.readReg q = s.readReg q := rfl
@[simp] theorem State.readReg_fetch (q : Reg) : s.fetch.readReg q = s.readReg q := rfl

end Sys2Proof.Machine
end

