-- ==== Sys2Proof/Laws/Ops.lean ====
section
/-! SUPPORT. One lemma per shared operation, saying once what it can do; later proofs cite these instead of unfolding. -/

namespace Sys2Proof.Machine

variable (s : State)

/-! ### MemRead and MemWrite, case by case (R32, R33) -/

@[simp] theorem State.memRead_dsr : s.memRead Config.dsrAddr = s.dsr := rfl
@[simp] theorem State.memRead_ddr : s.memRead Config.ddrAddr = s.ddr := rfl
@[simp] theorem State.memRead_mcr : s.memRead Config.mcrAddr = s.mcr := rfl

theorem State.memRead_ram (a : Word) (h₁ : a ≠ Config.dsrAddr) (h₂ : a ≠ Config.ddrAddr) (h₃ : a ≠ Config.mcrAddr) :
    s.memRead a = s.mem.read a.toNat := by
  simp [State.memRead, h₁, h₂, h₃]

/-- Everything `MemWrite` can do: one device register, the DDR with the DSR, or one cell. -/
theorem State.memWrite_cases (a v : Word) :
    (a = Config.dsrAddr ∧ s.memWrite a v = { s with dsr := v }) ∨
    (a = Config.ddrAddr ∧ s.memWrite a v = { s with ddr := v, dsr := 0x0000 }) ∨
    (a = Config.mcrAddr ∧ s.memWrite a v = { s with mcr := v }) ∨
    (a ≠ Config.dsrAddr ∧ a ≠ Config.ddrAddr ∧ a ≠ Config.mcrAddr ∧
      s.memWrite a v = { s with mem := s.mem.write a.toNat v }) := by
  unfold State.memWrite
  by_cases h₁ : a = Config.dsrAddr
  · exact .inl ⟨h₁, by simp [h₁]⟩
  by_cases h₂ : a = Config.ddrAddr
  · exact .inr (.inl ⟨h₂, by simp [h₂, h₂ ▸ h₁]⟩)
  by_cases h₃ : a = Config.mcrAddr
  · exact .inr (.inr (.inl ⟨h₃, by simp [h₃, h₃ ▸ h₁, h₃ ▸ h₂]⟩))
  · exact .inr (.inr (.inr ⟨h₁, h₂, h₃, by simp [h₁, h₂, h₃]⟩))

@[simp] theorem State.memWrite_regs (a v : Word) : (s.memWrite a v).regs = s.regs := by
  unfold State.memWrite; repeat' split
  all_goals rfl
@[simp] theorem State.memWrite_pc (a v : Word) : (s.memWrite a v).pc = s.pc := by
  unfold State.memWrite; repeat' split
  all_goals rfl
@[simp] theorem State.memWrite_ir (a v : Word) : (s.memWrite a v).ir = s.ir := by
  unfold State.memWrite; repeat' split
  all_goals rfl
@[simp] theorem State.memWrite_n (a v : Word) : (s.memWrite a v).n = s.n := by
  unfold State.memWrite; repeat' split
  all_goals rfl
@[simp] theorem State.memWrite_z (a v : Word) : (s.memWrite a v).z = s.z := by
  unfold State.memWrite; repeat' split
  all_goals rfl
@[simp] theorem State.memWrite_p (a v : Word) : (s.memWrite a v).p = s.p := by
  unfold State.memWrite; repeat' split
  all_goals rfl
@[simp] theorem State.memWrite_run (a v : Word) : (s.memWrite a v).run = s.run := by
  unfold State.memWrite; repeat' split
  all_goals rfl
@[simp] theorem State.memWrite_fault (a v : Word) : (s.memWrite a v).fault = s.fault := by
  unfold State.memWrite; repeat' split
  all_goals rfl
@[simp] theorem State.memWrite_out (a v : Word) : (s.memWrite a v).out = s.out := by
  unfold State.memWrite; repeat' split
  all_goals rfl
@[simp] theorem State.readReg_memWrite (q : Reg) (a v : Word) : (s.memWrite a v).readReg q = s.readReg q := by
  simp [State.readReg]

/-! ### The display flush (R71) -/

theorem State.displayFlush_of_ready (h : s.displayReady = true) : s.displayFlush = s := by
  simp [State.displayFlush, h]

theorem State.displayFlush_of_pending (h : s.displayReady = false) :
    s.displayFlush = { s with out := s.out ++ [s.ddr.setWidth 8], dsr := 0x8000 } := by
  simp [State.displayFlush, h, State.emit]

@[simp] theorem State.displayFlush_regs : s.displayFlush.regs = s.regs := by
  unfold State.displayFlush; split <;> rfl
@[simp] theorem State.displayFlush_pc : s.displayFlush.pc = s.pc := by
  unfold State.displayFlush; split <;> rfl
@[simp] theorem State.displayFlush_ir : s.displayFlush.ir = s.ir := by
  unfold State.displayFlush; split <;> rfl
@[simp] theorem State.displayFlush_n : s.displayFlush.n = s.n := by
  unfold State.displayFlush; split <;> rfl
@[simp] theorem State.displayFlush_z : s.displayFlush.z = s.z := by
  unfold State.displayFlush; split <;> rfl
@[simp] theorem State.displayFlush_p : s.displayFlush.p = s.p := by
  unfold State.displayFlush; split <;> rfl
@[simp] theorem State.displayFlush_mem : s.displayFlush.mem = s.mem := by
  unfold State.displayFlush; split <;> rfl
@[simp] theorem State.displayFlush_ddr : s.displayFlush.ddr = s.ddr := by
  unfold State.displayFlush; split <;> rfl
@[simp] theorem State.displayFlush_mcr : s.displayFlush.mcr = s.mcr := by
  unfold State.displayFlush; split <;> rfl
@[simp] theorem State.displayFlush_run : s.displayFlush.run = s.run := by
  unfold State.displayFlush; split <;> rfl
@[simp] theorem State.displayFlush_fault : s.displayFlush.fault = s.fault := by
  unfold State.displayFlush; split <;> rfl
@[simp] theorem State.readReg_displayFlush (q : Reg) : s.displayFlush.readReg q = s.readReg q := by
  simp [State.readReg]

/-- After the flush the display is ready (R26 (iii)). -/
theorem State.displayFlush_dsr_bit : s.displayFlush.dsr[15] = true := by
  unfold State.displayFlush
  split
  next h => exact h
  next => simp

/-! ### The power check (R76) -/

theorem State.powerCheck_of_powered (h : s.powered = true) : s.powerCheck = s := by
  simp [State.powerCheck, h]

theorem State.powerCheck_of_stopped (h : s.run ≠ .running) : s.powerCheck = s := by
  simp [State.powerCheck, h]

theorem State.powerCheck_of_off (h : s.run = .running) (hp : s.powered = false) :
    s.powerCheck = { s with run := .halted } := by
  simp [State.powerCheck, h, hp]

@[simp] theorem State.powerCheck_regs : s.powerCheck.regs = s.regs := by
  unfold State.powerCheck; split <;> rfl
@[simp] theorem State.powerCheck_pc : s.powerCheck.pc = s.pc := by
  unfold State.powerCheck; split <;> rfl
@[simp] theorem State.powerCheck_ir : s.powerCheck.ir = s.ir := by
  unfold State.powerCheck; split <;> rfl
@[simp] theorem State.powerCheck_n : s.powerCheck.n = s.n := by
  unfold State.powerCheck; split <;> rfl
@[simp] theorem State.powerCheck_z : s.powerCheck.z = s.z := by
  unfold State.powerCheck; split <;> rfl
@[simp] theorem State.powerCheck_p : s.powerCheck.p = s.p := by
  unfold State.powerCheck; split <;> rfl
@[simp] theorem State.powerCheck_mem : s.powerCheck.mem = s.mem := by
  unfold State.powerCheck; split <;> rfl
@[simp] theorem State.powerCheck_dsr : s.powerCheck.dsr = s.dsr := by
  unfold State.powerCheck; split <;> rfl
@[simp] theorem State.powerCheck_ddr : s.powerCheck.ddr = s.ddr := by
  unfold State.powerCheck; split <;> rfl
@[simp] theorem State.powerCheck_mcr : s.powerCheck.mcr = s.mcr := by
  unfold State.powerCheck; split <;> rfl
@[simp] theorem State.powerCheck_fault : s.powerCheck.fault = s.fault := by
  unfold State.powerCheck; split <;> rfl
@[simp] theorem State.powerCheck_out : s.powerCheck.out = s.out := by
  unfold State.powerCheck; split <;> rfl
@[simp] theorem State.readReg_powerCheck (q : Reg) : s.powerCheck.readReg q = s.readReg q := by
  simp [State.readReg]

/-- The part of the cycle after the instruction answers a next state only from a next state. -/
theorem finishCycle_eq_next (r : Result) (u : State) :
    finishCycle r = .next u ↔ ∃ t, r = .next t ∧ u = t.powerCheck := by
  cases r <;> simp [finishCycle, eq_comm]

end Sys2Proof.Machine
end

