-- ==== Sys2Proof/Laws/PerInstr.lean ====
section
/-! SUPPORT. Facts about every instruction as a term, one lemma per constructor. -/

namespace Sys2Proof.Laws

/-- The word of an instruction belongs to its own row of the opcode table (R55), and no bit the decoder examines is one of
the row's ignored bits (R57). -/
def RowFit.Statement (i : Instr) : Prop :=
  encode i &&& i.rowMask = i.rowMatch ∧ i.rowMask &&& i.ignoredBits = 0

theorem RowFit.br (n z p : Bool) (off : Int) : RowFit.Statement (.br n z p off) := by
  refine ⟨?_, by simp [Instr.rowMask, Instr.ignoredBits]⟩
  ext k hk
  interval_cases k <;> simp [encode, Instr.rowMask, Instr.rowMatch]

theorem RowFit.addReg (dr sr1 sr2 : Reg) : RowFit.Statement (.addReg dr sr1 sr2) := by
  refine ⟨?_, by simp [Instr.rowMask, Instr.ignoredBits]⟩
  ext k hk
  interval_cases k <;> simp [encode, Instr.rowMask, Instr.rowMatch]

theorem RowFit.addImm (dr sr1 : Reg) (imm : Int) : RowFit.Statement (.addImm dr sr1 imm) := by
  refine ⟨?_, by simp [Instr.rowMask, Instr.ignoredBits]⟩
  ext k hk
  interval_cases k <;> simp [encode, Instr.rowMask, Instr.rowMatch]

theorem RowFit.ld (dr : Reg) (off : Int) : RowFit.Statement (.ld dr off) := by
  refine ⟨?_, by simp [Instr.rowMask, Instr.ignoredBits]⟩
  ext k hk
  interval_cases k <;> simp [encode, Instr.rowMask, Instr.rowMatch]

theorem RowFit.st (sr : Reg) (off : Int) : RowFit.Statement (.st sr off) := by
  refine ⟨?_, by simp [Instr.rowMask, Instr.ignoredBits]⟩
  ext k hk
  interval_cases k <;> simp [encode, Instr.rowMask, Instr.rowMatch]

theorem RowFit.jsr (off : Int) : RowFit.Statement (.jsr off) := by
  refine ⟨?_, by simp [Instr.rowMask, Instr.ignoredBits]⟩
  ext k hk
  interval_cases k <;> simp [encode, Instr.rowMask, Instr.rowMatch]

theorem RowFit.andReg (dr sr1 sr2 : Reg) : RowFit.Statement (.andReg dr sr1 sr2) := by
  refine ⟨?_, by simp [Instr.rowMask, Instr.ignoredBits]⟩
  ext k hk
  interval_cases k <;> simp [encode, Instr.rowMask, Instr.rowMatch]

theorem RowFit.andImm (dr sr1 : Reg) (imm : Int) : RowFit.Statement (.andImm dr sr1 imm) := by
  refine ⟨?_, by simp [Instr.rowMask, Instr.ignoredBits]⟩
  ext k hk
  interval_cases k <;> simp [encode, Instr.rowMask, Instr.rowMatch]

theorem RowFit.ldr (dr base : Reg) (off : Int) : RowFit.Statement (.ldr dr base off) := by
  refine ⟨?_, by simp [Instr.rowMask, Instr.ignoredBits]⟩
  ext k hk
  interval_cases k <;> simp [encode, Instr.rowMask, Instr.rowMatch]

theorem RowFit.str (sr base : Reg) (off : Int) : RowFit.Statement (.str sr base off) := by
  refine ⟨?_, by simp [Instr.rowMask, Instr.ignoredBits]⟩
  ext k hk
  interval_cases k <;> simp [encode, Instr.rowMask, Instr.rowMatch]

theorem RowFit.unsupported1000 : RowFit.Statement .unsupported1000 := by
  exact ⟨by decide, by decide⟩

theorem RowFit.unsupported1001 : RowFit.Statement .unsupported1001 := by
  exact ⟨by decide, by decide⟩

theorem RowFit.ldi (dr : Reg) (off : Int) : RowFit.Statement (.ldi dr off) := by
  refine ⟨?_, by simp [Instr.rowMask, Instr.ignoredBits]⟩
  ext k hk
  interval_cases k <;> simp [encode, Instr.rowMask, Instr.rowMatch]

theorem RowFit.sti (sr : Reg) (off : Int) : RowFit.Statement (.sti sr off) := by
  refine ⟨?_, by simp [Instr.rowMask, Instr.ignoredBits]⟩
  ext k hk
  interval_cases k <;> simp [encode, Instr.rowMask, Instr.rowMatch]

theorem RowFit.ret : RowFit.Statement .ret := by
  exact ⟨by decide, by decide⟩

theorem RowFit.unsupported1101 : RowFit.Statement .unsupported1101 := by
  exact ⟨by decide, by decide⟩

theorem RowFit.lea (dr : Reg) (off : Int) : RowFit.Statement (.lea dr off) := by
  refine ⟨?_, by simp [Instr.rowMask, Instr.ignoredBits]⟩
  ext k hk
  interval_cases k <;> simp [encode, Instr.rowMask, Instr.rowMatch]

theorem RowFit.trap (v : Nat) : RowFit.Statement (.trap v) := by
  refine ⟨?_, by simp [Instr.rowMask, Instr.ignoredBits]⟩
  ext k hk
  interval_cases k <;> simp [encode, Instr.rowMask, Instr.rowMatch]

end Sys2Proof.Laws
end

