-- ==== Sys2Proof/Tests/Slice0.lean ====
section
/-! SUPPORT. Tests: decoding against words written out from spec/30_encoding.md, steps against the vectors of
spec/95_test_vectors.md (whose ids stand in the comments), well-formedness, and a witness for the hypotheses of each
statement in Certificates/Slice0/Obligations.lean. -/

namespace Sys2Proof.Tests

open Sys2Proof Sys2Proof.Machine

/-- The start state of the vectors: reset with `PC_RESET` = `a`, the words listed, and the word `w` at `a`. -/
def start (a : Word) (w : Nat) (image : List Cell := []) : State := (State.resetWith a image).withFetchWord 16 w

/-- The start state with one register set. -/
def start1 (w : Nat) (r : Reg) (v : Word) : State := (start 0x3000 w).writeReg r v

/-- The answer is a next state of which `f` holds. -/
def nextIs (r : Result) (f : State → Bool) : Bool :=
  match r with
  | .next t => f t
  | .fault _ => false
  | .refused _ => false

/-! ### Well-formedness: each check accepts its bounds and refuses a term just outside -/

theorem test_wf_imm5 : (Instr.addImm 0 0 (-16)).wellFormed = true ∧ (Instr.addImm 0 0 15).wellFormed = true ∧
    (Instr.addImm 0 0 (-17)).wellFormed = false ∧ (Instr.addImm 0 0 16).wellFormed = false ∧
    (Instr.andImm 0 0 (-17)).wellFormed = false ∧ (Instr.andImm 0 0 16).wellFormed = false := by decide
theorem test_wf_offset6 : (Instr.ldr 0 0 (-32)).wellFormed = true ∧ (Instr.ldr 0 0 31).wellFormed = true ∧
    (Instr.ldr 0 0 (-33)).wellFormed = false ∧ (Instr.ldr 0 0 32).wellFormed = false ∧
    (Instr.str 0 0 (-33)).wellFormed = false ∧ (Instr.str 0 0 32).wellFormed = false := by decide
theorem test_wf_offset9 : (Instr.ld 0 (-256)).wellFormed = true ∧ (Instr.ld 0 255).wellFormed = true ∧
    (Instr.ld 0 (-257)).wellFormed = false ∧ (Instr.ldi 0 256).wellFormed = false ∧
    (Instr.lea 0 256).wellFormed = false ∧ (Instr.st 0 256).wellFormed = false ∧
    (Instr.sti 0 (-257)).wellFormed = false ∧ (Instr.br true true true 256).wellFormed = false := by decide
theorem test_wf_offset11 : (Instr.jsr (-1024)).wellFormed = true ∧ (Instr.jsr 1023).wellFormed = true ∧
    (Instr.jsr (-1025)).wellFormed = false ∧ (Instr.jsr 1024).wellFormed = false := by decide
theorem test_wf_trapvect8 : (Instr.trap 255).wellFormed = true ∧ (Instr.trap 256).wellFormed = false := by decide

/-! ### Decoding: words written out bit by bit from R52; the operand bits differ from one another -/

-- 0000 n z p PCoffset9 (R58)
theorem test_decode_br : decode 0b0000110000000100 = .br true true false 4 := by decide
-- 0001 DR SR1 0 -- SR2, with the ignored bits 4:3 both ways (R57)
theorem test_decode_addReg : decode 0b0001010000000001 = .addReg 2 0 1 ∧ decode 0b0001010000011001 = .addReg 2 0 1 := by
  decide
-- 0001 DR SR1 1 imm5
theorem test_decode_addImm : decode 0b0001011100110000 = .addImm 3 4 (-16) := by decide
-- 0010 DR PCoffset9
theorem test_decode_ld : decode 0b0010001100000000 = .ld 1 (-256) := by decide
-- 0011 SR PCoffset9
theorem test_decode_st : decode 0b0011011111111111 = .st 3 (-1) := by decide
-- 0100 - PCoffset11, bit 11 both ways (R62)
theorem test_decode_jsr : decode 0b0100101111111111 = .jsr 1023 ∧ decode 0b0100000010000000 = .jsr 128 := by decide
-- 0101 DR SR1 0 -- SR2
theorem test_decode_andReg : decode 0b0101010000001001 = .andReg 2 0 1 := by decide
-- 0101 DR SR1 1 imm5
theorem test_decode_andImm : decode 0b0101001010101111 = .andImm 1 2 15 := by decide
-- 0110 DR BaseR offset6
theorem test_decode_ldr : decode 0b0110001010100000 = .ldr 1 2 (-32) := by decide
-- 0111 SR BaseR offset6
theorem test_decode_str : decode 0b0111001010000011 = .str 1 2 3 := by decide
-- 1000, 1001, 1101 with every other bit set (R63)
theorem test_decode_unsupported : decode 0b1000111111111111 = .unsupported1000 ∧
    decode 0b1001111111111111 = .unsupported1001 ∧ decode 0b1101111111111111 = .unsupported1101 := by decide
-- 1010 DR PCoffset9
theorem test_decode_ldi : decode 0b1010001000000010 = .ldi 1 2 := by decide
-- 1011 SR PCoffset9
theorem test_decode_sti : decode 0b1011000000000101 = .sti 0 5 := by decide
-- 1100 and twelve ignored bits (R61)
theorem test_decode_ret : decode 0b1100000111000000 = .ret ∧ decode 0b1100000010000000 = .ret := by decide
-- 1110 DR PCoffset9
theorem test_decode_lea : decode 0b1110001111111110 = .lea 1 (-2) := by decide
-- 1111 ---- trapvect8, bits 11:8 both ways
theorem test_decode_trap : decode 0b1111000010000000 = .trap 0x80 ∧ decode 0b1111111100100101 = .trap 0x25 := by decide
/-- The canonical words of R66. -/
theorem test_encode : encode (.ldr 1 2 (-1)) = 0x62BF ∧ encode (.br false false true (-3)) = 0x03FD ∧
    encode (.jsr 2) = 0x4802 ∧ encode .ret = 0xC1C0 ∧ encode (.trap 0x25) = 0xF025 ∧ encode (.str 1 2 3) = 0x7283 := by
  decide

/-! ### Steps against the vectors of spec/95_test_vectors.md -/

-- ADD-2: signed overflow wraps
theorem test_add_wraps : nextIs (step (((start 0x3000 0x1401).writeReg 0 0x7FFF).writeReg 1 1)) (fun t =>
    decide (t.readReg 2 = 0x8000 ∧ t.n = true ∧ t.z = false ∧ t.p = false ∧ t.pc = 0x3001)) = true := by decide
-- ADD-5: DR = SR1 = SR2
theorem test_add_same_register : nextIs (step (start1 0x1241 1 0x4000)) (fun t =>
    decide (t.readReg 1 = 0x8000 ∧ t.n = true)) = true := by decide
-- ADD-9, ADD-10: the extreme immediates
theorem test_addImm_min : nextIs (step (start1 0x1730 4 0x0010)) (fun t =>
    decide (t.readReg 3 = 0x0000 ∧ t.z = true)) = true := by decide
theorem test_addImm_max : nextIs (step (start1 0x172F 4 0x7FFF)) (fun t =>
    decide (t.readReg 3 = 0x800E ∧ t.n = true)) = true := by decide
-- AND-2, AND-6
theorem test_and : nextIs (step (((start 0x3000 0x5401).writeReg 0 0xF000).writeReg 1 0x8FFF)) (fun t =>
    decide (t.readReg 2 = 0x8000 ∧ t.n = true)) = true := by decide
theorem test_andImm_sign_extends : nextIs (step (start1 0x52B0 2 0x1234)) (fun t =>
    decide (t.readReg 1 = 0x1230 ∧ t.p = true)) = true := by decide
-- LD-3, LD-6
theorem test_ld_min_offset : nextIs (step (start 0x3000 0x2300 [(0x2F01, 0xABCD)])) (fun t =>
    decide (t.readReg 1 = 0xABCD ∧ t.n = true)) = true := by decide
theorem test_ld_reads_dsr : nextIs (step (start 0xFE03 0x2200)) (fun t =>
    decide (t.readReg 1 = 0x8000 ∧ t.n = true ∧ t.pc = 0xFE04)) = true := by decide
-- LDI-2, LDI-6: both hops through the access layer
theorem test_ldi_second_hop : nextIs (step (start 0x3000 0xA202 [(0x3003, 0xFE04)])) (fun t =>
    decide (t.readReg 1 = 0x8000 ∧ t.n = true)) = true := by decide
theorem test_ldi_first_hop : nextIs (step (start 0xFFFD 0xA000 [(0x8000, 0x0007)])) (fun t =>
    decide (t.readReg 0 = 0x0007 ∧ t.pc = 0xFFFE)) = true := by decide
-- LDR-2: DR = BaseR; LDR-3: the address wraps
theorem test_ldr_same_register : nextIs (step ((start 0x3000 0x6480 [(0x4000, 0x0042)]).writeReg 2 0x4000)) (fun t =>
    decide (t.readReg 2 = 0x0042)) = true := by decide
theorem test_ldr_wraps : nextIs (step (start 0x3000 0x62BF [(0xFFFF, 0x0009)])) (fun t =>
    decide (t.readReg 1 = 0x0009 ∧ t.p = true)) = true := by decide
-- LEA-3
theorem test_lea_sets_flags : nextIs (step (start 0x7FFF 0xE000)) (fun t =>
    decide (t.readReg 0 = 0x8000 ∧ t.n = true ∧ t.z = false)) = true := by decide
-- ST-4: clearing the power bit halts; ST-3: a store on its own word
theorem test_st_halts : nextIs (step ((start 0xFFFD 0x3000).writeReg 0 0x7FFF)) (fun t =>
    decide (t.mcr = 0x7FFF ∧ t.run = .halted ∧ t.pc = 0xFFFE)) = true := by decide
theorem test_st_own_word : nextIs (step (start 0x3000 0x37FF)) (fun t =>
    decide (t.memRead 0x3000 = 0x0000 ∧ t.ir = 0x37FF ∧ t.mem = [])) = true := by decide
-- STI-1, STI-4
theorem test_sti_to_ddr : nextIs (step ((start 0x3000 0xB005 [(0x3006, 0xFE06)]).writeReg 0 0x0048)) (fun t =>
    decide (t.ddr = 0x0048 ∧ t.dsr = 0x0000 ∧ t.out = [])) = true := by decide
theorem test_sti_to_dsr : nextIs (step ({ start 0x3000 0xB001 [(0x3002, 0xFE04)] with ddr := 0x0041 })) (fun t =>
    decide (t.dsr = 0x0000 ∧ t.ddr = 0x0041)) = true := by decide
-- STR-2: SR = BaseR; STR-3: the address wraps
theorem test_str_same_register : nextIs (step (start1 0x7480 2 0x4000)) (fun t =>
    decide (t.memRead 0x4000 = 0x4000)) = true := by decide
theorem test_str_wraps : nextIs (step (((start 0x3000 0x72A0).writeReg 1 1).writeReg 2 0x0010)) (fun t =>
    decide (t.memRead 0xFFF0 = 0x0001 ∧ t.z = true)) = true := by decide
-- BR-2 with cc = P and cc = Z
theorem test_br_not_taken : nextIs (step ({ start 0x3000 0x0C04 with z := false, p := true })) (fun t =>
    decide (t.pc = 0x3001)) = true := by decide
theorem test_br_taken : nextIs (step (start 0x3000 0x0C04)) (fun t => decide (t.pc = 0x3005)) = true := by decide
-- JSR-4: bit 11 ignored; JSR-5: the link wraps
theorem test_jsr_ignores_bit11 : nextIs (step (start1 0x4080 2 0x5000)) (fun t =>
    decide (t.readReg 7 = 0x3001 ∧ t.pc = 0x3081)) = true := by decide
theorem test_jsr_wraps : nextIs (step ((start 0xFFFF 0x4800).writeReg 7 0x1234)) (fun t =>
    decide (t.readReg 7 = 0x0000 ∧ t.pc = 0x0000)) = true := by decide
-- RET-2: the base register is ignored
theorem test_ret_ignores_base : nextIs (step (((start 0x3000 0xC080).writeReg 2 0x5000).writeReg 7 0x3001)) (fun t =>
    decide (t.pc = 0x3001)) = true := by decide
-- TRP-5: the vector is zero-extended
theorem test_trap_zero_extends : nextIs (step (start 0x3000 0xF080 [(0x0080, 0x0400), (0xFF80, 0x0666)])) (fun t =>
    decide (t.readReg 7 = 0x3001 ∧ t.pc = 0x0400)) = true := by decide
-- FLT-1, FLT-2, FLT-4
theorem test_fault_1000 : nextIs (step (start 0x3000 0x8000)) (fun t =>
    decide (t.run = .faulted ∧ t.fault = some ⟨8, 0x3001⟩ ∧ t.ir = 0x8000)) = true := by decide
theorem test_fault_1001 : nextIs (step (start1 0x927F 1 0x00FF)) (fun t =>
    decide (t.run = .faulted ∧ t.fault = some ⟨9, 0x3001⟩ ∧ t.readReg 1 = 0x00FF)) = true := by decide
theorem test_fault_1101 : nextIs (step (start 0xFFFF 0xDFFF)) (fun t =>
    decide (t.run = .faulted ∧ t.fault = some ⟨0xD, 0x0000⟩ ∧ t.pc = 0x0000)) = true := by decide
-- FLT-5: the flush comes before the fault
theorem test_flush_before_fault : nextIs (step ({ start 0x3000 0x9000 with dsr := 0x0000, ddr := 0x0041 })) (fun t =>
    decide (t.out = [0x41] ∧ t.dsr = 0x8000 ∧ t.run = .faulted)) = true := by decide
-- FLS-1, FLS-2, FLS-3
theorem test_flush_low_byte : nextIs (step ({ start 0x3000 0x1025 with dsr := 0x0000, ddr := 0x1241 })) (fun t =>
    decide (t.out = [0x41] ∧ t.ddr = 0x1241 ∧ t.readReg 0 = 0x0005)) = true := by decide
theorem test_flush_bit15_alone :
    nextIs (step ({ start 0x3000 0 with dsr := 0x7FFF, ddr := 0x0061 })) (fun t =>
      decide (t.out = [0x61] ∧ t.dsr = 0x8000)) = true ∧
    nextIs (step ({ start 0x3000 0 with dsr := 0x8001, ddr := 0x0061 })) (fun t =>
      decide (t.out = [] ∧ t.dsr = 0x8001)) = true := by decide
-- DEV-1: the DDR's value is fetched and executed
theorem test_fetch_from_ddr : nextIs (step ({ State.resetWith 0xFE06 [] with ddr := 0x1021 })) (fun t =>
    decide (t.ir = 0x1021 ∧ t.readReg 0 = 0x0001 ∧ t.pc = 0xFE07)) = true := by decide
/-- From reset with nothing placed the first cycle is the no-op branch 0x0000 (R64). -/
theorem test_reset_first_cycle : nextIs (step State.reset) (fun t => decide (t.pc = 0x3001 ∧ t.ir = 0x0000)) = true := by
  decide
/-- A write of the value an unlisted address reads as leaves no entry, and entries stay in order. -/
theorem test_memory_canonical : Memory.write [(3, 1), (9, 2)] 3 0 = [(9, 2)] ∧
    Memory.write [(3, 1), (9, 2)] 5 7 = [(3, 1), (5, 7), (9, 2)] ∧ Memory.write [] 65535 1 = [(65535, 1)] := by decide
theorem test_memory_wf : Memory.wf [(3, 1), (65535, 2)] ∧ ¬Memory.wf [(9, 1), (3, 2)] ∧ ¬Memory.wf [(3, 0)] ∧
    ¬Memory.wf [(65536, 1)] := by decide

/-! ### Witnesses for the hypotheses of the statements, one conjunct or theorem per clause -/

theorem witness_DecodeEncodeRoundTrip : (Instr.andImm 7 0 (-16)).wellFormed = true ∧ (Instr.str 7 0 31).wellFormed = true ∧
    (Instr.br true false true (-256)).wellFormed = true ∧ (Instr.jsr 1023).wellFormed = true ∧
    (Instr.trap 255).wellFormed = true := by decide
theorem witness_IgnoredBitsHaveNoEffect : (0xC1C0 : Word) ≠ 0xC080 ∧
    0xC1C0 &&& ~~~(decode 0xC1C0).ignoredBits = 0xC080 &&& ~~~(decode 0xC1C0).ignoredBits := by decide
theorem witness_EveryWordInExactlyItsRow : 0x1025 &&& (Instr.addImm 0 0 5).rowMask = (Instr.addImm 0 0 5).rowMatch := by
  decide
theorem witness_ExtensionPrimitives : 11 ∈ [5, 6, 9, 11] ∧ 15 < 16 := by decide
theorem witness_ExtensionKeepsValue : ((-16 : Int) ≤ -16 ∧ (-16 : Int) ≤ 15) ∧ ((-32 : Int) ≤ 31 ∧ (31 : Int) ≤ 31) ∧
    ((-256 : Int) ≤ -256 ∧ (-256 : Int) ≤ 255) ∧ ((-1024 : Int) ≤ 1023 ∧ (1023 : Int) ≤ 1023) ∧ 255 ≤ 255 := by decide
theorem witness_AddRegisterForm : (0x1401 : Word).extractLsb' 12 4 = 0b0001 ∧ (0x1401 : Word)[5] = false := by decide
theorem witness_AddImmediateForm : (0x1025 : Word).extractLsb' 12 4 = 0b0001 ∧ (0x1025 : Word)[5] = true := by decide
theorem witness_AndRegisterForm : (0x5401 : Word).extractLsb' 12 4 = 0b0101 ∧ (0x5401 : Word)[5] = false := by decide
theorem witness_AndImmediateForm : (0x5020 : Word).extractLsb' 12 4 = 0b0101 ∧ (0x5020 : Word)[5] = true := by decide
theorem witness_LoadPcRelative : (0x2004 : Word).extractLsb' 12 4 = 0b0010 := by decide
theorem witness_LoadIndirect : (0xA202 : Word).extractLsb' 12 4 = 0b1010 := by decide
theorem witness_LoadBaseOffset : (0x62BF : Word).extractLsb' 12 4 = 0b0110 := by decide
theorem witness_LoadEffectiveAddress : (0xE3FE : Word).extractLsb' 12 4 = 0b1110 := by decide
theorem witness_StorePcRelative : (0x3002 : Word).extractLsb' 12 4 = 0b0011 := by decide
theorem witness_StoreIndirect : (0xB005 : Word).extractLsb' 12 4 = 0b1011 := by decide
theorem witness_StoreBaseOffset : (0x7283 : Word).extractLsb' 12 4 = 0b0111 := by decide
theorem witness_ConditionalBranch : (0x03FD : Word).extractLsb' 12 4 = 0b0000 := by decide
theorem witness_JumpToSubroutine : (0x4080 : Word).extractLsb' 12 4 = 0b0100 := by decide
theorem witness_ReturnThroughRegisterSeven : (0xC080 : Word).extractLsb' 12 4 = 0b1100 := by decide
theorem witness_TrapThroughVectorTable : (0xFF25 : Word).extractLsb' 12 4 = 0b1111 := by decide
theorem witness_UnsupportedOpcodesTakeFault : (0x8000 : Word).extractLsb' 12 4 = 0b1000 ∧
    (0x927F : Word).extractLsb' 12 4 = 0b1001 ∧ (0xDFFF : Word).extractLsb' 12 4 = 0b1101 := by decide
theorem witness_MemReadAtEachAddress : ¬isDevice 0xFE05 ∧ ¬isDevice 0xFFFF := by decide
theorem witness_OnlyStoresChangeMemory :
    storeOf (start1 0x7480 2 0x4000) (.str 2 2 0) = some (0x4000, 0x4000) ∧
    storeOf (start 0x3000 0) (.br false false false 0) = none := by decide
theorem witness_StoreSeenByNextFetch : (start1 0x3200 1 0x1025).run = .running ∧ (start1 0x3200 1 0x1025).mcr[15] = true ∧
    (start1 0x3200 1 0x1025).displayFlush.memRead 0x3000 = encode (.st 1 0) ∧ ¬isDevice (0x3000 + 1) := by decide
theorem witness_ShadowedCellsUnreachable :
    (∀ a : Word, ¬isDevice a → Memory.read [(0xFE04, 5)] a.toNat = State.reset.mem.read a.toNat) ∧
    ∃ t, step State.reset = .next t := by
  refine ⟨fun a h => ?_, ⟨_, rfl⟩⟩
  have : (0xFE04 : Nat) ≠ a.toNat := fun e => h (.inl (BitVec.eq_of_toNat_eq (by simpa using e.symm)))
  simp [Memory.read, this, State.reset, State.resetWith, Config.memImage]
theorem witness_SetccByValue : (0x8000 : Word)[15] = true ∧ (0x7FFF : Word)[15] = false ∧ (0x7FFF : Word) ≠ 0x0000 := by
  decide
theorem witness_StepRunsDecodedInstruction : (start 0x3000 0xC1C0).run = .running ∧
    decode ((start 0x3000 0xC1C0).displayFlush.memRead 0x3000) = .ret ∧
    ∃ t, exec .ret { (start 0x3000 0xC1C0).displayFlush with ir := 0xC1C0, pc := 0x3001 } = .next t :=
  ⟨by decide, by decide, ⟨_, rfl⟩⟩
theorem witness_RunningCoreIsNeverStuck : State.reset.run = .running := by decide
theorem witness_TerminalStatesAbsorb :
    nextIs (step ((start 0xFFFD 0x3000).writeReg 0 0x7FFF)) (fun t => decide (t.run = .halted)) = true ∧
    nextIs (step (start 0x3000 0x8000)) (fun t => decide (t.run = .faulted)) = true := by decide
theorem witness_HaltsExactlyOnPowerOff :
    let s := (start 0xFFFD 0x3000).writeReg 0 0x7FFF
    s.run = .running ∧ s.mcr[15] = true ∧ storeOf s.beginCycle (decode s.beginCycle.ir) = some (0xFFFE, 0x7FFF) := by
  decide
theorem witness_HaltsExactlyOnPowerOff_stays_on :
    let s := (start 0xFFFD 0x3000).writeReg 0 0x8001
    s.run = .running ∧ s.mcr[15] = true ∧ storeOf s.beginCycle (decode s.beginCycle.ir) = some (0xFFFE, 0x8001) := by
  decide
theorem witness_FaultsExactlyOnUnsupportedOpcode :
    (start 0x3000 0xDFFF).run = .running ∧ (start 0x3000 0xDFFF).displayFlush.memRead 0x3000 = 0xDFFF ∧
    ((0xDFFF : Word).extractLsb' 12 4).toNat ∈ [8, 9, 13] ∧
    (start 0x3000 0xC1C0).displayFlush.memRead 0x3000 = 0xC1C0 ∧
    ((0xC1C0 : Word).extractLsb' 12 4).toNat ∉ [8, 9, 13] := by decide
theorem witness_PcAfterEveryInstruction : (start 0x3000 0xD000).run = .running ∧
    (start 0x3000 0xD000).displayFlush.memRead 0x3000 = 0xD000 ∧ decode 0xD000 = .unsupported1101 := by decide
theorem witness_FlagsAfterEveryInstruction : (start 0x7FFF 0xE000).run = .running ∧
    decode (start 0x7FFF 0xE000).beginCycle.ir = .lea 0 0 ∧ affectsFlags (.lea 0 0) = true ∧
    decode (start 0x3000 0x4802).beginCycle.ir = .jsr 2 ∧ affectsFlags (.jsr 2) = false := by decide
theorem witness_OnlyDestinationRegisterChanges : (start 0x3000 0x4802).run = .running ∧
    destOf (decode (start 0x3000 0x4802).beginCycle.ir) ≠ some 6 := by decide
theorem witness_OutputGrowsOnlyByFlush : State.reset.run = .running ∧ State.reset.dsr[15] = true ∧
    (0x7FFF : Word)[15] = false := by decide
theorem witness_StoredCharacterLeavesNextCycle :
    let s := (start 0x3000 0xB005 [(0x3006, 0xFE06)]).writeReg 0 0x0048
    s.run = .running ∧ s.mcr[15] = true ∧ storeOf s.beginCycle (decode s.beginCycle.ir) = some (0xFE06, 0x0048) := by
  decide
theorem witness_LoadOfStatusFindsReady :
    let s : State := { start 0x3000 0xA202 [(0x3003, 0xFE04)] with dsr := 0x0000 }
    s.run = .running ∧ loadOf s.beginCycle (decode s.beginCycle.ir) = some (1, 0xFE04) := by decide
theorem witness_FetchFromDeviceRegister : (State.resetWith 0xFE04 []).run = .running ∧
    (State.resetWith 0xFE04 []).pc = 0xFE04 ∧ (State.resetWith 0xFE04 []).dsr = 0x8000 ∧
    (State.resetWith 0xFE06 []).pc = 0xFE06 ∧ (State.resetWith 0xFFFE []).pc = 0xFFFE ∧
    (State.resetWith 0xFFFE []).mcr = 0x8000 := by decide
theorem witness_StaleIrUnobservable : State.reset.run = .running := by decide
theorem witness_OutputUnobservable : ∃ t, step State.reset = .next t := ⟨_, rfl⟩
theorem witness_CallThenReturn : (∃ off, Instr.jsr 2 = .jsr off) ∧ (∃ vec, Instr.trap 37 = .trap vec) ∧
    (start 0x3000 0x4802).run = .running ∧ decode (start 0x3000 0x4802).beginCycle.ir = .jsr 2 ∧
    decode (start 0x3000 0xF025).beginCycle.ir = .trap 37 ∧
    ((start 0x4000 0xC1C0).writeReg 7 0x3001).run = .running ∧
    decode ((start 0x4000 0xC1C0).writeReg 7 0x3001).beginCycle.ir = .ret ∧
    nextIs (step (start 0x3000 0x4802)) (fun t =>
      decide (((start 0x4000 0xC1C0).writeReg 7 0x3001).readReg 7 = t.readReg 7)) = true :=
  ⟨⟨2, rfl⟩, ⟨37, rfl⟩, by decide⟩
theorem witness_BranchNeverAndAlways : (0x01FF : Word).toNat < 0x0200 ∧
    (State.reset.n = false ∧ State.reset.z = true ∧ State.reset.p = false) := by decide
theorem witness_image_wf : Memory.wf [(0x0025, 0x0200), (0x0200, 0x5260)] := by decide
theorem witness_StepKeepsInvariant : ({ State.reset with run := .halted, mcr := 0x0000 } : State).Inv ∧
    ({ start 0x3000 0x1025 with z := false, p := true } : State).Inv ∧
    ∃ t, step { start 0x3000 0x1025 with z := false, p := true } = .next t :=
  ⟨⟨by decide, by decide, by decide, by decide, by decide, by decide, fun h => absurd h (by decide)⟩,
    ⟨by decide, by decide, by decide, by decide, by decide, by decide, fun h => absurd h (by decide)⟩, ⟨_, rfl⟩⟩
theorem witness_PlacedWordIsFetched : (State.resetWith 0xFFFE []).run = .running ∧ (State.resetWith 0xFFFE []).pc ≠ 0xFE04 := by
  decide

end Sys2Proof.Tests
end

section
/-! Proofs: the bits of `sext_N` and `zext_8` (R7). -/

namespace Sys2Proof.Machine

/-- The sign extension read bit by bit, at every width: an index at or above the width reads the field's top bit. At width
0 both sides are the `false` that an empty field answers. -/
theorem getLsbD_sext (n : Nat) (v : Int) {k : Nat} (hk : k < 16) :
    (sext n v).getLsbD k = (BitVec.ofInt n v).getLsbD (if k < n then k else n - 1) := by
  unfold sext
  rw [BitVec.getLsbD_signExtend]
  by_cases hlow : k < n
  · simp [hk, hlow]
  · simp [hk, hlow, BitVec.msb_eq_getLsbD_last]

/-- The zero extension read bit by bit. -/
theorem getLsbD_zext8 (v : Nat) {k : Nat} (hk : k < 16) :
    (zext8 v).getLsbD k = (decide (k < 8) && v.testBit k) := by
  simp [zext8, BitVec.getLsbD_ofNat, hk]

/-- Settles O7: each of the four widths is an instance of the equation for `sext` at every width. -/
theorem extensionPrimitives : Obligations.ExtensionPrimitives :=
  ⟨fun n _ v _ hk => getLsbD_sext n v hk, fun v _ hk => getLsbD_zext8 v hk⟩

end Sys2Proof.Machine
end

section
/-! Proofs: what `MemRead` answers at each address (R32). -/

namespace Sys2Proof.Machine

/-- An address that is no device register reads its memory cell. -/
theorem State.memRead_of_not_isDevice (s : State) {a : Word} (ha : ¬isDevice a) : s.memRead a = s.mem.read a.toNat :=
  s.memRead_ram a (fun hdsr => ha (.inl hdsr)) (fun hddr => ha (.inr (.inl hddr)))
    (fun hmcr => ha (.inr (.inr hmcr)))

/-- Settles O25: one read equation per device register, and the one for every address that is none of them. -/
theorem memReadAtEachAddress : Obligations.MemReadAtEachAddress :=
  fun s => ⟨s.memRead_dsr, s.memRead_ddr, s.memRead_mcr, fun _ ha => s.memRead_of_not_isDevice ha⟩

end Sys2Proof.Machine
end

section
/-! Proofs: the four opcode bits (R51, R52), and what a word of opcode ADD or AND decodes to (R54). -/

namespace Sys2Proof

/-- The bits `decode` examines are those of the opcode field. -/
theorem Word.opcode_bits {w : Word} {op : BitVec 4} (hop : w.extractLsb' 12 4 = op) :
    w[15] = op[3] ∧ w[14] = op[2] ∧ w[13] = op[1] ∧ w[12] = op[0] := by
  subst hop
  simp

/-- Opcode 0001: bit 5 chooses between the two forms of ADD. -/
theorem decode_of_opcode_add {w : Word} (hop : w.extractLsb' 12 4 = 0b0001) :
    decode w =
      if w[5] = true then .addImm (Word.destReg w) (Word.srcReg1 w) (Word.imm5 w)
      else .addReg (Word.destReg w) (Word.srcReg1 w) (Word.srcReg2 w) := by
  obtain ⟨h15, h14, h13, h12⟩ := Word.opcode_bits hop
  cases h5 : w[5] <;> simp [decode, Word.immediateFlag, h15, h14, h13, h12, h5]

/-- Opcode 0101: bit 5 chooses between the two forms of AND. -/
theorem decode_of_opcode_and {w : Word} (hop : w.extractLsb' 12 4 = 0b0101) :
    decode w =
      if w[5] = true then .andImm (Word.destReg w) (Word.srcReg1 w) (Word.imm5 w)
      else .andReg (Word.destReg w) (Word.srcReg1 w) (Word.srcReg2 w) := by
  obtain ⟨h15, h14, h13, h12⟩ := Word.opcode_bits hop
  cases h5 : w[5] <;> simp [decode, Word.immediateFlag, h15, h14, h13, h12, h5]

end Sys2Proof
end

section
/-! Proofs: `writeDest` leaves its value in DR, the flags of the value's sign, and nothing else changed (R16, R74, R75). -/

namespace Sys2Proof.Machine

/-- Bit 15 of a word is the sign of its two's-complement reading (R6). -/
theorem getElem_fifteen_iff_toInt_neg (v : Word) : v[15] = true ↔ v.toInt < 0 := by
  rw [← decide_eq_true_iff (p := v.toInt < 0), ← BitVec.msb_eq_toInt, BitVec.msb_eq_getLsbD_last]
  simp

/-- `setcc` by bit 15 and by being zero is `setcc` by the sign of the signed reading (R15, R74). -/
theorem State.flagsOfSign_setcc (s : State) (v : Word) : FlagsOfSign v (s.setcc v) := by
  have hneg : v[15] = true ↔ v.toInt < 0 := getElem_fifteen_iff_toInt_neg v
  have hzero : v = 0 ↔ v.toInt = 0 := BitVec.toInt_inj.symm
  refine ⟨hneg, by simpa using hzero, ?_⟩
  calc (s.setcc v).p = true
      ↔ ¬v[15] = true ∧ ¬v = 0 := by simp
    _ ↔ ¬v.toInt < 0 ∧ ¬v.toInt = 0 := by rw [hneg, hzero]
    _ ↔ 0 < v.toInt := by omega

/-- The common end of ADD, AND, LD, LDI, LDR and LEA meets the frame that their statements use. -/
theorem State.writesDest_writeDest (s : State) (dr : Reg) (v : Word) : WritesDest dr v s (s.writeDest dr v) := by
  have hframe : SameRegsExcept [dr] s (s.writeDest dr v) := fun r hr =>
    s.readReg_writeReg_of_ne dr r v (List.ne_of_not_mem_cons hr)
  exact ⟨s.readReg_writeReg_self dr v, (s.writeReg dr v).flagsOfSign_setcc v, hframe, rfl, fun _ => rfl,
    ⟨rfl, rfl, rfl⟩, ⟨rfl, rfl⟩, ⟨rfl, rfl⟩⟩

end Sys2Proof.Machine
end

section
/-! Proofs: the operate instructions ADD and AND (spec/41_operate.md). The result is computed in the state before, so DR may
be a source. -/

namespace Sys2Proof.Machine

/-- Settles O9: opcode 0001 with bit 5 clear, and the end that all writers of DR share. -/
theorem addRegisterForm : Obligations.AddRegisterForm :=
  ⟨fun _ hop h5 => (decode_of_opcode_add hop).trans (if_neg (Bool.eq_false_iff.1 h5)),
    fun dr _ _ s => ⟨_, rfl, s.writesDest_writeDest dr _⟩⟩

/-- Settles O10: opcode 0001 with bit 5 set, and the end that all writers of DR share. -/
theorem addImmediateForm : Obligations.AddImmediateForm :=
  ⟨fun _ hop h5 => (decode_of_opcode_add hop).trans (if_pos h5),
    fun dr _ _ s => ⟨_, rfl, s.writesDest_writeDest dr _⟩⟩

/-- Settles O11: opcode 0101 with bit 5 clear, and the end that all writers of DR share. -/
theorem andRegisterForm : Obligations.AndRegisterForm :=
  ⟨fun _ hop h5 => (decode_of_opcode_and hop).trans (if_neg (Bool.eq_false_iff.1 h5)),
    fun dr _ _ s => ⟨_, rfl, s.writesDest_writeDest dr _⟩⟩

/-- Settles O12: opcode 0101 with bit 5 set, and the end that all writers of DR share. -/
theorem andImmediateForm : Obligations.AndImmediateForm :=
  ⟨fun _ hop h5 => (decode_of_opcode_and hop).trans (if_pos h5),
    fun dr _ _ s => ⟨_, rfl, s.writesDest_writeDest dr _⟩⟩

end Sys2Proof.Machine
end

section
/-! Proofs: what a word of opcode LD, LDI, LDR or LEA decodes to (R54): bits 15:12 alone choose the instruction. -/

namespace Sys2Proof

/-- Opcode 0010 is LD. -/
theorem decode_of_opcode_ld {w : Word} (hop : w.extractLsb' 12 4 = 0b0010) :
    decode w = .ld (Word.destReg w) (Word.pcOffset9 w) := by
  simp [decode, Word.opcode_bits hop]

/-- Opcode 1010 is LDI. -/
theorem decode_of_opcode_ldi {w : Word} (hop : w.extractLsb' 12 4 = 0b1010) :
    decode w = .ldi (Word.destReg w) (Word.pcOffset9 w) := by
  simp [decode, Word.opcode_bits hop]

/-- Opcode 0110 is LDR. -/
theorem decode_of_opcode_ldr {w : Word} (hop : w.extractLsb' 12 4 = 0b0110) :
    decode w = .ldr (Word.destReg w) (Word.srcReg1 w) (Word.offset6 w) := by
  simp [decode, Word.opcode_bits hop]

/-- Opcode 1110 is LEA. -/
theorem decode_of_opcode_lea {w : Word} (hop : w.extractLsb' 12 4 = 0b1110) :
    decode w = .lea (Word.destReg w) (Word.pcOffset9 w) := by
  simp [decode, Word.opcode_bits hop]

end Sys2Proof
end

section
/-! Proofs: the loads LD, LDI and LDR, and LEA (spec/42_loads.md). The address and the word are read in the state before, so
DR may be BaseR. -/

namespace Sys2Proof.Machine

/-- Settles O13: opcode 0010, and the common end applied to the word at `pcRel9`. -/
theorem loadPcRelative : Obligations.LoadPcRelative :=
  ⟨fun _ => decode_of_opcode_ld, fun dr off s => ⟨_, rfl, s.writesDest_writeDest dr (s.memRead (s.pcRel9 off))⟩⟩

/-- Settles O14: opcode 1010, and the common end applied to the word at the address that `indirect9` reads. -/
theorem loadIndirect : Obligations.LoadIndirect :=
  ⟨fun _ => decode_of_opcode_ldi, fun dr off s => ⟨_, rfl, s.writesDest_writeDest dr (s.memRead (s.indirect9 off))⟩⟩

/-- Settles O15: opcode 0110, and the common end applied to the word at `baseRel6`. -/
theorem loadBaseOffset : Obligations.LoadBaseOffset :=
  ⟨fun _ => decode_of_opcode_ldr,
    fun dr base off s => ⟨_, rfl, s.writesDest_writeDest dr (s.memRead (s.baseRel6 base off))⟩⟩

/-- Settles O16: opcode 1110, and the common end applied to the address `pcRel9` itself. -/
theorem loadEffectiveAddress : Obligations.LoadEffectiveAddress :=
  ⟨fun _ => decode_of_opcode_lea, fun dr off s => ⟨_, rfl, s.writesDest_writeDest dr (s.pcRel9 off)⟩⟩

end Sys2Proof.Machine
end

section
/-! Proofs: what a word of opcode ST, STI or STR decodes to (R54): bits 15:12 alone choose the instruction. -/

namespace Sys2Proof

/-- Opcode 0011 is ST. -/
theorem decode_of_opcode_st {w : Word} (hop : w.extractLsb' 12 4 = 0b0011) :
    decode w = .st (Word.destReg w) (Word.pcOffset9 w) := by
  simp [decode, Word.opcode_bits hop]

/-- Opcode 1011 is STI. -/
theorem decode_of_opcode_sti {w : Word} (hop : w.extractLsb' 12 4 = 0b1011) :
    decode w = .sti (Word.destReg w) (Word.pcOffset9 w) := by
  simp [decode, Word.opcode_bits hop]

/-- Opcode 0111 is STR. -/
theorem decode_of_opcode_str {w : Word} (hop : w.extractLsb' 12 4 = 0b0111) :
    decode w = .str (Word.destReg w) (Word.srcReg1 w) (Word.offset6 w) := by
  simp [decode, Word.opcode_bits hop]

end Sys2Proof
end

section
/-! Proofs: what `MemWrite` leaves in every memory cell and at every address, and that it meets the frame of the stores
(R33, R34, R103). -/

namespace Sys2Proof.Machine

/-- A store to a device register leaves every memory cell, the shadowed ones too. -/
theorem State.memWrite_mem_of_isDevice (s : State) {a : Word} (v : Word) (ha : isDevice a) :
    (s.memWrite a v).mem = s.mem := by
  obtain rfl | rfl | rfl := ha <;> rfl

/-- A store leaves every memory cell but the one at its address. -/
theorem State.memWrite_mem_read_of_ne (s : State) {a b : Word} (v : Word) (hb : b ≠ a) :
    (s.memWrite a v).mem.read b.toNat = s.mem.read b.toNat := by
  have hcell : b.toNat ≠ a.toNat := BitVec.toNat_ne_iff_ne.2 hb
  obtain ⟨-, hw⟩ | ⟨-, hw⟩ | ⟨-, hw⟩ | ⟨-, -, -, hw⟩ := s.memWrite_cases a v
  · rw [hw]
  · rw [hw]
  · rw [hw]
  · simp [hw, Memory.read_write, hcell]

/-- A read at the address just written gives the word written, at the device addresses too. -/
@[simp] theorem State.memRead_memWrite_self (s : State) (a v : Word) : (s.memWrite a v).memRead a = v := by
  obtain ⟨rfl, hw⟩ | ⟨rfl, hw⟩ | ⟨rfl, hw⟩ | ⟨hdsr, hddr, hmcr, hw⟩ := s.memWrite_cases a v
  · rw [hw, State.memRead_dsr]
  · rw [hw, State.memRead_ddr]
  · rw [hw, State.memRead_mcr]
  · rw [hw, State.memRead_ram _ a hdsr hddr hmcr, Memory.read_write, if_pos rfl]

/-- A read at another address is as before, but for the DSR after a store to the DDR (D10). -/
theorem State.memRead_memWrite_of_ne (s : State) {a b : Word} (v : Word) (hb : b ≠ a)
    (hstatus : ¬(a = 0xFE06 ∧ b = 0xFE04)) : (s.memWrite a v).memRead b = s.memRead b := by
  obtain ⟨rfl, hw⟩ | ⟨rfl, hw⟩ | ⟨rfl, hw⟩ | ⟨-, -, -, hw⟩ := s.memWrite_cases a v
  · rw [hw]
    simp [State.memRead, hb]
  · have hdsr : b ≠ Config.dsrAddr := fun h => hstatus ⟨rfl, h⟩
    rw [hw]
    simp [State.memRead, hb, hdsr]
  · rw [hw]
    simp [State.memRead, hb]
  · have hcell := s.memWrite_mem_read_of_ne v hb
    rw [hw] at hcell ⊢
    simp only [State.memRead, hcell]

/-- `MemWrite` meets the frame that the statements of ST, STI and STR use. -/
theorem State.storesAt_memWrite (s : State) (a v : Word) : StoresAt a v s (s.memWrite a v) := by
  have hpending : a = 0xFE06 → (s.memWrite a v).dsr = 0x0000 := by rintro rfl; rfl
  have hcells : ∀ b : Word, b ≠ a ∨ isDevice a → (s.memWrite a v).mem.read b.toNat = s.mem.read b.toNat := by
    rintro b (hother | hdevice)
    · exact s.memWrite_mem_read_of_ne v hother
    · rw [s.memWrite_mem_of_isDevice v hdevice]
  exact ⟨s.memRead_memWrite_self a v, hpending, fun _ => s.memRead_memWrite_of_ne v, hcells,
    fun r _ => s.readReg_memWrite r a v, ⟨s.memWrite_n a v, s.memWrite_z a v, s.memWrite_p a v⟩,
    s.memWrite_pc a v, ⟨s.memWrite_ir a v, s.memWrite_out a v⟩, ⟨s.memWrite_run a v, s.memWrite_fault a v⟩⟩

end Sys2Proof.Machine
end

section
/-! Proofs: the stores ST, STI and STR (spec/43_stores.md). Each is one `MemWrite` of x[SR], at an address computed in
the state before. -/

namespace Sys2Proof.Machine

/-- Settles O17: opcode 0011, and `MemWrite` at `pcRel9`. -/
theorem storePcRelative : Obligations.StorePcRelative :=
  ⟨fun _ => decode_of_opcode_st, fun sr off s => ⟨_, rfl, s.storesAt_memWrite (s.pcRel9 off) (s.readReg sr)⟩⟩

/-- Settles O18: opcode 1011, and `MemWrite` at the address that `indirect9` reads. -/
theorem storeIndirect : Obligations.StoreIndirect :=
  ⟨fun _ => decode_of_opcode_sti, fun sr off s => ⟨_, rfl, s.storesAt_memWrite (s.indirect9 off) (s.readReg sr)⟩⟩

/-- Settles O19: opcode 0111, and `MemWrite` at `baseRel6`; SR may be BaseR. -/
theorem storeBaseOffset : Obligations.StoreBaseOffset :=
  ⟨fun _ => decode_of_opcode_str,
    fun sr base off s => ⟨_, rfl, s.storesAt_memWrite (s.baseRel6 base off) (s.readReg sr)⟩⟩

end Sys2Proof.Machine
end

section
/-! Proofs: what a word of opcode BR decodes to (R54): bits 15:12 alone choose the instruction. -/

namespace Sys2Proof

/-- Opcode 0000 is BR. -/
theorem decode_of_opcode_br {w : Word} (hop : w.extractLsb' 12 4 = 0b0000) :
    decode w = .br w[11] w[10] w[9] (Word.pcOffset9 w) := by
  simp [decode, Word.opcode_bits hop]

end Sys2Proof
end

section
/-! Proofs: the conditional branch BR (spec/44_control.md section 1). It changes the PC alone, to one of two targets. -/

namespace Sys2Proof.Machine

/-- The branch is taken when some requested flag is set (R110). -/
theorem State.branchTaken_iff (s : State) (n z p : Bool) :
    s.branchTaken n z p = true ↔ (n = true ∧ s.n = true) ∨ (z = true ∧ s.z = true) ∨ (p = true ∧ s.p = true) := by
  simp [State.branchTaken, or_assoc]

/-- Taken or not, BR answers the state with a new PC; not taken, that PC is the old one. -/
theorem exec_br (n z p : Bool) (off : Int) (s : State) :
    exec (.br n z p off) s = .next { s with pc := if s.branchTaken n z p = true then s.pcRel9 off else s.pc } := by
  cases htaken : s.branchTaken n z p <;> simp [exec, execBr, htaken]

/-- Replacing the PC alone meets the frame that the statements of the control instructions use. -/
theorem State.jumpsTo_withPc (s : State) (target : Word) : JumpsTo target [] s { s with pc := target } :=
  ⟨rfl, fun _ _ => rfl, ⟨rfl, rfl, rfl⟩, fun _ => rfl, ⟨rfl, rfl, rfl⟩, ⟨rfl, rfl⟩, ⟨rfl, rfl⟩⟩

/-- Settles O20: opcode 0000, and a change of the PC alone, its target chosen by `branchTaken`. -/
theorem conditionalBranch : Obligations.ConditionalBranch := by
  refine ⟨fun _ => decode_of_opcode_br, fun n z p off s => ⟨_, exec_br n z p off s, ?_⟩⟩
  simp only [← s.branchTaken_iff n z p]
  exact s.jumpsTo_withPc _

end Sys2Proof.Machine
end

section
/-! Proofs: what a word of each remaining opcode decodes to (R54): JSR, RET, TRAP and the three unsupported ones. -/

namespace Sys2Proof

/-- Opcode 0100 is JSR, whatever bit 11 is (D4). -/
theorem decode_of_opcode_jsr {w : Word} (hop : w.extractLsb' 12 4 = 0b0100) :
    decode w = .jsr (Word.pcOffset11 w) := by
  simp [decode, Word.opcode_bits hop]

/-- Opcode 1100 is RET, whatever the other bits are (D3). -/
theorem decode_of_opcode_ret {w : Word} (hop : w.extractLsb' 12 4 = 0b1100) : decode w = .ret := by
  simp [decode, Word.opcode_bits hop]

/-- Opcode 1111 is TRAP. -/
theorem decode_of_opcode_trap {w : Word} (hop : w.extractLsb' 12 4 = 0b1111) :
    decode w = .trap (Word.trapvect8 w) := by
  simp [decode, Word.opcode_bits hop]

/-- Opcode 1000 is unsupported. -/
theorem decode_of_opcode_1000 {w : Word} (hop : w.extractLsb' 12 4 = 0b1000) : decode w = .unsupported1000 := by
  simp [decode, Word.opcode_bits hop]

/-- Opcode 1001 is unsupported. -/
theorem decode_of_opcode_1001 {w : Word} (hop : w.extractLsb' 12 4 = 0b1001) : decode w = .unsupported1001 := by
  simp [decode, Word.opcode_bits hop]

/-- Opcode 1101 is unsupported. -/
theorem decode_of_opcode_1101 {w : Word} (hop : w.extractLsb' 12 4 = 0b1101) : decode w = .unsupported1101 := by
  simp [decode, Word.opcode_bits hop]

end Sys2Proof
end

section
/-! Proofs: the fields of a word and the fields of an encoded word (R51, R52): a field read where it was placed, a field
placed where it was read, and words that agree outside a mask. -/

namespace Sys2Proof

/-- A field read where it was placed. -/
theorem extractLsb'_placeField {n : Nat} (v : BitVec n) (lo : Nat) (hfits : lo + n ≤ 16) :
    (placeField v lo).extractLsb' lo n = v := by
  ext k hk
  have hbit : lo + k < 16 := by omega
  simp [BitVec.getLsbD_eq_getElem, hbit, hk]

/-- A field read off where another was placed is zero. -/
theorem extractLsb'_placeField_of_disjoint {n : Nat} (v : BitVec n) (lo : Nat) {lo' n' : Nat}
    (hdisjoint : lo' + n' ≤ lo ∨ lo + n ≤ lo') : (placeField v lo).extractLsb' lo' n' = 0#n' := by
  ext k hk
  by_cases hbit : lo' + k < 16
  · rw [BitVec.getElem_extractLsb', BitVec.getLsbD_eq_getElem hbit, getElem_placeField, BitVec.getElem_zero]
    rcases hdisjoint with hbelow | habove
    · simp [show ¬lo ≤ lo' + k by omega]
    · simp [BitVec.getLsbD_of_ge v (lo' + k - lo) (by omega)]
  · simp [BitVec.getLsbD_of_ge (placeField v lo) (lo' + k) (by omega)]

theorem extractLsb'_placeBit_of_disjoint (b : Bool) (lo : Nat) {lo' n' : Nat}
    (hdisjoint : lo' + n' ≤ lo ∨ lo + 1 ≤ lo') : (placeBit b lo).extractLsb' lo' n' = 0#n' :=
  extractLsb'_placeField_of_disjoint _ lo hdisjoint

/-- A field placed where it was read is the word under the field's mask. -/
theorem placeField_extractLsb' (w : Word) (lo n : Nat) :
    placeField (w.extractLsb' lo n) lo = w &&& placeField (BitVec.allOnes n) lo := by
  ext k hk
  by_cases hlo : lo ≤ k
  · simp [hlo, BitVec.getLsbD_eq_getElem, hk, Bool.and_comm]
  · simp [hlo]

/-- One bit placed where it was read is the word under that bit's mask. -/
theorem placeBit_getElem (w : Word) (lo : Nat) (hlo : lo < 16) : placeBit w[lo] lo = w &&& placeBit true lo := by
  ext k hk
  by_cases hk' : k = lo
  · simp [hk']
  · simp [hk']

/-- Words that agree outside a mask agree on every field that the mask does not meet. -/
theorem extractLsb'_eq_of_agree {v w mask : Word} (hagree : w &&& ~~~mask = v &&& ~~~mask) (lo n : Nat)
    (hfits : lo + n ≤ 16) (hmask : mask.extractLsb' lo n = 0#n) : w.extractLsb' lo n = v.extractLsb' lo n := by
  ext k hk
  have hbit : lo + k < 16 := by omega
  have hclear : mask[lo + k] = false := by
    simpa [hk, BitVec.getLsbD_eq_getElem, hbit] using congrArg (·.getLsbD k) hmask
  simpa [hbit, hclear, BitVec.getLsbD_eq_getElem] using congrArg (·.getLsbD (lo + k)) hagree

end Sys2Proof
end

section
/-! Proofs: signed and unsigned fields hold the numbers of their range (R7, R53). -/

namespace Sys2Proof

/-- The range check of R53, both bounds in view. -/
theorem fitsSigned_iff {n : Nat} {v : Int} :
    fitsSigned n v = true ↔ -(2 ^ (n - 1) : Int) ≤ v ∧ v < (2 ^ (n - 1) : Int) := by
  simp [fitsSigned]

/-- A signed number in the range of a field is read back from it. -/
theorem toInt_ofInt_of_fitsSigned {n : Nat} {v : Int} (hpos : 0 < n) (hfits : fitsSigned n v = true) :
    (BitVec.ofInt n v).toInt = v := by
  obtain ⟨hmin, hmax⟩ := fitsSigned_iff.1 hfits
  exact BitVec.toInt_ofInt_eq_self hpos hmin hmax

/-- An unsigned number in the range of a field is read back from it. -/
theorem toNat_ofNat_of_fitsUnsigned {n v : Nat} (hfits : fitsUnsigned n v = true) : (BitVec.ofNat n v).toNat = v :=
  (BitVec.toNat_ofNat v n).trans (Nat.mod_eq_of_lt (of_decide_eq_true hfits))

/-- The signed reading of a field is in the field's range. -/
theorem fitsSigned_toInt {n : Nat} (v : BitVec n) : fitsSigned n v.toInt = true :=
  fitsSigned_iff.2 ⟨v.le_toInt, v.toInt_lt⟩

/-- The unsigned reading of a field is in the field's range. -/
theorem fitsUnsigned_toNat {n : Nat} (v : BitVec n) : fitsUnsigned n v.toNat = true :=
  decide_eq_true v.isLt

@[simp] theorem fitsSigned_imm5 (w : Word) : fitsSigned 5 (Word.imm5 w) = true := fitsSigned_toInt _
@[simp] theorem fitsSigned_offset6 (w : Word) : fitsSigned 6 (Word.offset6 w) = true := fitsSigned_toInt _
@[simp] theorem fitsSigned_pcOffset9 (w : Word) : fitsSigned 9 (Word.pcOffset9 w) = true := fitsSigned_toInt _
@[simp] theorem fitsSigned_pcOffset11 (w : Word) : fitsSigned 11 (Word.pcOffset11 w) = true := fitsSigned_toInt _
@[simp] theorem fitsUnsigned_trapvect8 (w : Word) : fitsUnsigned 8 (Word.trapvect8 w) = true := fitsUnsigned_toNat _

/-- Settles O3: every operand of a decoded word is the reading of a field, and such a reading is in range. -/
theorem decodeGivesWellFormed : Obligations.DecodeGivesWellFormed := by
  intro w
  fun_cases decode w <;> simp [Instr.wellFormed]

end Sys2Proof

namespace Sys2Proof.Machine

/-- An operand in the range of its field keeps its signed value through `sext_N`, at every width up to a word's. -/
theorem toInt_sext_of_fitsSigned {n : Nat} {v : Int} (hpos : 0 < n) (hwidth : n ≤ 16) (hfits : fitsSigned n v = true) :
    (sext n v).toInt = v := by
  rw [sext, BitVec.toInt_signExtend_of_le hwidth, toInt_ofInt_of_fitsSigned hpos hfits]

/-- An unsigned byte keeps its value through `zext_8`. -/
theorem toNat_zext8_of_fitsUnsigned {v : Nat} (hfits : fitsUnsigned 8 v = true) : (zext8 v).toNat = v := by
  rw [zext8, BitVec.toNat_setWidth_of_le (by decide), toNat_ofNat_of_fitsUnsigned hfits]

/-- Settles O8: the ranges of the four widths and of the byte are the range checks of R53. -/
theorem extensionKeepsValue : Obligations.ExtensionKeepsValue := by
  refine ⟨fun v hmin hmax => ?_, fun v hmin hmax => ?_, fun v hmin hmax => ?_, fun v hmin hmax => ?_, fun v hmax => ?_⟩
  · exact toInt_sext_of_fitsSigned (by decide) (by decide) (fitsSigned_iff.2 (by omega))
  · exact toInt_sext_of_fitsSigned (by decide) (by decide) (fitsSigned_iff.2 (by omega))
  · exact toInt_sext_of_fitsSigned (by decide) (by decide) (fitsSigned_iff.2 (by omega))
  · exact toInt_sext_of_fitsSigned (by decide) (by decide) (fitsSigned_iff.2 (by omega))
  · exact toNat_zext8_of_fitsUnsigned (decide_eq_true (by omega))

end Sys2Proof.Machine
end

section
/-! Proofs: the row of a word in the opcode table (R55). -/

namespace Sys2Proof

/-- The word under the mask of most rows, bit by bit: the opcode. -/
theorem Word.and_opcodeMask (w : Word) :
    w &&& 0xF000#16 = placeBit w[15] 15 ||| placeBit w[14] 14 ||| placeBit w[13] 13 ||| placeBit w[12] 12 := by
  ext k hk
  interval_cases k <;> simp

/-- The word under the mask of the rows of ADD and AND, bit by bit: the opcode and the immediate flag. -/
theorem Word.and_opcodeFlagMask (w : Word) :
    w &&& 0xF020#16 =
      placeBit w[15] 15 ||| placeBit w[14] 14 ||| placeBit w[13] 13 ||| placeBit w[12] 12 |||
        placeBit (Word.immediateFlag w) 5 := by
  ext k hk
  interval_cases k <;> simp [Word.immediateFlag]

/-- A word belongs to the row of the instruction it decodes to. -/
theorem and_rowMask_decode (w : Word) : w &&& (decode w).rowMask = (decode w).rowMatch := by
  fun_cases decode w <;>
    simp only [Instr.rowMask, Instr.rowMatch, Word.and_opcodeMask, Word.and_opcodeFlagMask, *] <;> decide

/-- The per-constructor facts `RowFit` as one. -/
theorem rowFit (i : Instr) : Laws.RowFit.Statement i := by
  cases i with
  | br n z p off => exact Laws.RowFit.br n z p off
  | addReg dr sr1 sr2 => exact Laws.RowFit.addReg dr sr1 sr2
  | addImm dr sr1 imm => exact Laws.RowFit.addImm dr sr1 imm
  | ld dr off => exact Laws.RowFit.ld dr off
  | st sr off => exact Laws.RowFit.st sr off
  | jsr off => exact Laws.RowFit.jsr off
  | andReg dr sr1 sr2 => exact Laws.RowFit.andReg dr sr1 sr2
  | andImm dr sr1 imm => exact Laws.RowFit.andImm dr sr1 imm
  | ldr dr base off => exact Laws.RowFit.ldr dr base off
  | str sr base off => exact Laws.RowFit.str sr base off
  | unsupported1000 => exact Laws.RowFit.unsupported1000
  | unsupported1001 => exact Laws.RowFit.unsupported1001
  | ldi dr off => exact Laws.RowFit.ldi dr off
  | sti sr off => exact Laws.RowFit.sti sr off
  | ret => exact Laws.RowFit.ret
  | unsupported1101 => exact Laws.RowFit.unsupported1101
  | lea dr off => exact Laws.RowFit.lea dr off
  | trap v => exact Laws.RowFit.trap v

end Sys2Proof
end

section
/-! Proofs: the row a word lies in fixes the instruction it decodes to, up to the operands. -/

namespace Sys2Proof

/-- The opcode of the row (R54). -/
def Instr.opcode : Instr → BitVec 4
  | .br _ _ _ _ => 0b0000
  | .addReg _ _ _ => 0b0001
  | .addImm _ _ _ => 0b0001
  | .ld _ _ => 0b0010
  | .st _ _ => 0b0011
  | .jsr _ => 0b0100
  | .andReg _ _ _ => 0b0101
  | .andImm _ _ _ => 0b0101
  | .ldr _ _ _ => 0b0110
  | .str _ _ _ => 0b0111
  | .unsupported1000 => 0b1000
  | .unsupported1001 => 0b1001
  | .ldi _ _ => 0b1010
  | .sti _ _ => 0b1011
  | .ret => 0b1100
  | .unsupported1101 => 0b1101
  | .lea _ _ => 0b1110
  | .trap _ => 0b1111

/-- The instruction of the same row with the operands that `w` holds in the row's fields (R52). -/
def Instr.withOperandsOf (w : Word) : Instr → Instr
  | .br _ _ _ _ => .br w[11] w[10] w[9] (Word.pcOffset9 w)
  | .addReg _ _ _ => .addReg (Word.destReg w) (Word.srcReg1 w) (Word.srcReg2 w)
  | .addImm _ _ _ => .addImm (Word.destReg w) (Word.srcReg1 w) (Word.imm5 w)
  | .ld _ _ => .ld (Word.destReg w) (Word.pcOffset9 w)
  | .st _ _ => .st (Word.destReg w) (Word.pcOffset9 w)
  | .jsr _ => .jsr (Word.pcOffset11 w)
  | .andReg _ _ _ => .andReg (Word.destReg w) (Word.srcReg1 w) (Word.srcReg2 w)
  | .andImm _ _ _ => .andImm (Word.destReg w) (Word.srcReg1 w) (Word.imm5 w)
  | .ldr _ _ _ => .ldr (Word.destReg w) (Word.srcReg1 w) (Word.offset6 w)
  | .str _ _ _ => .str (Word.destReg w) (Word.srcReg1 w) (Word.offset6 w)
  | .unsupported1000 => .unsupported1000
  | .unsupported1001 => .unsupported1001
  | .ldi _ _ => .ldi (Word.destReg w) (Word.pcOffset9 w)
  | .sti _ _ => .sti (Word.destReg w) (Word.pcOffset9 w)
  | .ret => .ret
  | .unsupported1101 => .unsupported1101
  | .lea _ _ => .lea (Word.destReg w) (Word.pcOffset9 w)
  | .trap _ => .trap (Word.trapvect8 w)

@[simp] theorem Instr.rowMask_withOperandsOf (w : Word) (i : Instr) : (i.withOperandsOf w).rowMask = i.rowMask := by
  cases i <;> rfl

@[simp] theorem Instr.rowMatch_withOperandsOf (w : Word) (i : Instr) : (i.withOperandsOf w).rowMatch = i.rowMatch := by
  cases i <;> rfl

/-- Every row examines the four opcode bits and fixes them to its opcode. -/
theorem extractLsb'_opcode_of_row {w : Word} {i : Instr} (hrow : w &&& i.rowMask = i.rowMatch) :
    w.extractLsb' 12 4 = i.opcode := by
  have hmask : i.rowMask.extractLsb' 12 4 = BitVec.allOnes 4 := by cases i <;> simp [Instr.rowMask]
  have hmatch : i.rowMatch.extractLsb' 12 4 = i.opcode := by cases i <;> simp [Instr.rowMatch, Instr.opcode]
  rw [← hmatch, ← hrow, BitVec.extractLsb'_and, hmask, BitVec.and_allOnes]

/-- The rows of ADD and AND examine bit 5. -/
theorem getElem_five_of_row {w : Word} (m : Word) (hrow : w &&& 0xF020#16 = m) : w[5] = m[5] := by
  subst hrow
  simp

/-- A word of the row of `i` decodes to the instruction of that row with the word's operands. -/
theorem decode_of_row {w : Word} {i : Instr} (hrow : w &&& i.rowMask = i.rowMatch) :
    decode w = i.withOperandsOf w := by
  have hop := extractLsb'_opcode_of_row hrow
  cases i with
  | br n z p off => exact decode_of_opcode_br hop
  | addReg dr sr1 sr2 =>
    have hflag : w[5] = false := getElem_five_of_row 0x1000 hrow
    exact (decode_of_opcode_add hop).trans (if_neg (Bool.eq_false_iff.1 hflag))
  | addImm dr sr1 imm =>
    have hflag : w[5] = true := getElem_five_of_row 0x1020 hrow
    exact (decode_of_opcode_add hop).trans (if_pos hflag)
  | ld dr off => exact decode_of_opcode_ld hop
  | st sr off => exact decode_of_opcode_st hop
  | jsr off => exact decode_of_opcode_jsr hop
  | andReg dr sr1 sr2 =>
    have hflag : w[5] = false := getElem_five_of_row 0x5000 hrow
    exact (decode_of_opcode_and hop).trans (if_neg (Bool.eq_false_iff.1 hflag))
  | andImm dr sr1 imm =>
    have hflag : w[5] = true := getElem_five_of_row 0x5020 hrow
    exact (decode_of_opcode_and hop).trans (if_pos hflag)
  | ldr dr base off => exact decode_of_opcode_ldr hop
  | str sr base off => exact decode_of_opcode_str hop
  | unsupported1000 => exact decode_of_opcode_1000 hop
  | unsupported1001 => exact decode_of_opcode_1001 hop
  | ldi dr off => exact decode_of_opcode_ldi hop
  | sti sr off => exact decode_of_opcode_sti hop
  | ret => exact decode_of_opcode_ret hop
  | unsupported1101 => exact decode_of_opcode_1101 hop
  | lea dr off => exact decode_of_opcode_lea hop
  | trap v => exact decode_of_opcode_trap hop

/-- Settles O6: a word lies in the row it decodes to, and a row it lies in decides what it decodes to. -/
theorem everyWordInExactlyItsRow : Obligations.EveryWordInExactlyItsRow := by
  refine ⟨and_rowMask_decode, fun w i hrow => ?_⟩
  rw [decode_of_row hrow]
  simp

end Sys2Proof
end

section
/-! Proofs: decode undoes encode, and does so from any word that agrees with the canonical one on the bits that are not
ignored (R52, R57, R60). -/

namespace Sys2Proof

/-- The bits of a row's mask are none of its ignored bits. -/
theorem not_ignoredBits_and_rowMask (i : Instr) : ~~~i.ignoredBits &&& i.rowMask = i.rowMask := by
  obtain ⟨-, hdisjoint⟩ := rowFit i
  ext k hk
  have hbit : (i.rowMask[k] && i.ignoredBits[k]) = false := by
    simpa [hk] using congrArg (·.getLsbD k) hdisjoint
  cases hmask : i.rowMask[k] <;> simp_all

/-- Words that agree outside the ignored bits of a row agree on what the row examines. -/
theorem and_rowMask_of_agree {v w : Word} {i : Instr} (hagree : w &&& ~~~i.ignoredBits = v &&& ~~~i.ignoredBits) :
    w &&& i.rowMask = v &&& i.rowMask := by
  rw [← not_ignoredBits_and_rowMask i, ← BitVec.and_assoc, ← BitVec.and_assoc, hagree]

/-- A word that agrees with the canonical word of `i` outside the ignored bits lies in the row of `i`. -/
theorem row_of_agrees_encode {w : Word} {i : Instr}
    (hagree : w &&& ~~~i.ignoredBits = encode i &&& ~~~i.ignoredBits) : w &&& i.rowMask = i.rowMatch := by
  obtain ⟨hcanonical, -⟩ := rowFit i
  rw [and_rowMask_of_agree hagree, hcanonical]

/-- Words that agree outside the ignored bits hold the same operands: no field of a row meets its ignored bits. -/
theorem Instr.withOperandsOf_congr {v w : Word} {i : Instr}
    (hagree : w &&& ~~~i.ignoredBits = v &&& ~~~i.ignoredBits) : i.withOperandsOf w = i.withOperandsOf v := by
  have hfield := extractLsb'_eq_of_agree hagree
  cases i with
  | addReg dr sr1 sr2 | andReg dr sr1 sr2 =>
    have hdr := hfield 9 3 (by decide) (by simp [Instr.ignoredBits])
    have hsr1 := hfield 6 3 (by decide) (by simp [Instr.ignoredBits])
    have hsr2 := hfield 0 3 (by decide) (by simp [Instr.ignoredBits])
    simp only [Instr.withOperandsOf, Word.destReg, Word.srcReg1, Word.srcReg2, hdr, hsr1, hsr2]
  | jsr off =>
    have hoff := hfield 0 11 (by decide) (by simp [Instr.ignoredBits])
    simp only [Instr.withOperandsOf, Word.pcOffset11, hoff]
  | trap vec =>
    have hvec := hfield 0 8 (by decide) (by simp [Instr.ignoredBits])
    simp only [Instr.withOperandsOf, Word.trapvect8, hvec]
  | unsupported1000 | unsupported1001 | ret | unsupported1101 => rfl
  | br | addImm | ld | st | andImm | ldr | str | ldi | sti | lea =>
    obtain rfl : w = v := by simpa only [Instr.ignoredBits, BitVec.not_zero, BitVec.and_allOnes] using hagree
    rfl

/-- The operands of a well-formed instruction stand in the fields of its canonical word. The simp lemmas switched off
would turn the reading of a field into arithmetic before the field is found. -/
theorem Instr.withOperandsOf_encode {i : Instr} (hwf : i.wellFormed = true) : i.withOperandsOf (encode i) = i := by
  cases i <;> simp only [Instr.wellFormed] at hwf <;>
    simp [Instr.withOperandsOf, encode, Word.destReg, Word.srcReg1, Word.srcReg2, Word.imm5, Word.offset6,
      Word.pcOffset9, Word.pcOffset11, Word.trapvect8, placeReg, placeSigned, BitVec.extractLsb'_or,
      extractLsb'_placeField, extractLsb'_placeField_of_disjoint, extractLsb'_placeBit_of_disjoint,
      toInt_ofInt_of_fitsSigned, toNat_ofNat_of_fitsUnsigned, hwf, -BitVec.toInt_extractLsb',
      -BitVec.toFin_extractLsb', -BitVec.extractLsb'_toNat, -BitVec.toInt_ofInt, -BitVec.toNat_ofNat]

/-- A word that agrees with the canonical word of a well-formed instruction outside the ignored bits decodes to it. -/
theorem decode_of_agrees_encode {w : Word} {i : Instr} (hwf : i.wellFormed = true)
    (hagree : w &&& ~~~i.ignoredBits = encode i &&& ~~~i.ignoredBits) : decode w = i :=
  calc decode w
      = i.withOperandsOf w := decode_of_row (row_of_agrees_encode hagree)
    _ = i.withOperandsOf (encode i) := Instr.withOperandsOf_congr hagree
    _ = i := Instr.withOperandsOf_encode hwf

/-- Settles O2: the canonical word agrees with itself. -/
theorem decodeEncodeRoundTrip : Obligations.DecodeEncodeRoundTrip :=
  fun _ hwf => decode_of_agrees_encode hwf rfl

/-- Settles O5: words that agree on the bits that are not ignored lie in one row, and hold the same operands. -/
theorem ignoredBitsHaveNoEffect : Obligations.IgnoredBitsHaveNoEffect := by
  intro w w' hagree
  have hrow : w' &&& (decode w).rowMask = (decode w).rowMatch := by
    rw [← and_rowMask_of_agree hagree, and_rowMask_decode]
  calc decode w'
      = (decode w).withOperandsOf w' := decode_of_row hrow
    _ = (decode w).withOperandsOf w := Instr.withOperandsOf_congr hagree.symm
    _ = decode w := (decode_of_row (and_rowMask_decode w)).symm

end Sys2Proof
end

section
/-! Proofs: encode after decode gives back every bit that is not ignored (R52, R57). Each field is placed where it was
read, so the canonical word is the word under the row's mask and under the masks of the fields. -/

namespace Sys2Proof

theorem placeBit_eleven (w : Word) : placeBit w[11] 11 = w &&& 0x0800#16 := placeBit_getElem w 11 (by decide)
theorem placeBit_ten (w : Word) : placeBit w[10] 10 = w &&& 0x0400#16 := placeBit_getElem w 10 (by decide)
theorem placeBit_nine (w : Word) : placeBit w[9] 9 = w &&& 0x0200#16 := placeBit_getElem w 9 (by decide)
theorem placeReg_destReg (w : Word) : placeReg (Word.destReg w) 9 = w &&& 0x0E00#16 := placeField_extractLsb' w 9 3
theorem placeReg_srcReg1 (w : Word) : placeReg (Word.srcReg1 w) 6 = w &&& 0x01C0#16 := placeField_extractLsb' w 6 3
theorem placeReg_srcReg2 (w : Word) : placeReg (Word.srcReg2 w) 0 = w &&& 0x0007#16 := placeField_extractLsb' w 0 3

/-- A signed field is placed as it was read. -/
theorem placeSigned_toInt {n : Nat} (v : BitVec n) : placeSigned n v.toInt = placeField v 0 := by
  rw [placeSigned, BitVec.ofInt_toInt]

theorem placeSigned_imm5 (w : Word) : placeSigned 5 (Word.imm5 w) = w &&& 0x001F#16 :=
  (placeSigned_toInt _).trans (placeField_extractLsb' w 0 5)
theorem placeSigned_offset6 (w : Word) : placeSigned 6 (Word.offset6 w) = w &&& 0x003F#16 :=
  (placeSigned_toInt _).trans (placeField_extractLsb' w 0 6)
theorem placeSigned_pcOffset9 (w : Word) : placeSigned 9 (Word.pcOffset9 w) = w &&& 0x01FF#16 :=
  (placeSigned_toInt _).trans (placeField_extractLsb' w 0 9)
theorem placeSigned_pcOffset11 (w : Word) : placeSigned 11 (Word.pcOffset11 w) = w &&& 0x07FF#16 :=
  (placeSigned_toInt _).trans (placeField_extractLsb' w 0 11)

theorem placeField_trapvect8 (w : Word) : placeField (BitVec.ofNat 8 (Word.trapvect8 w)) 0 = w &&& 0x00FF#16 := by
  rw [Word.trapvect8, BitVec.ofNat_toNat, BitVec.setWidth_eq]
  exact placeField_extractLsb' w 0 8

/-- The canonical word with the operands of `w`, on the bits that are not ignored: the row's match, and `w` on the bits
that are neither examined nor ignored. The tables are rewritten to their literals before `simp` computes with these. -/
theorem encode_withOperandsOf (w : Word) (i : Instr) :
    encode (i.withOperandsOf w) &&& ~~~i.ignoredBits = i.rowMatch ||| (w &&& ~~~i.rowMask &&& ~~~i.ignoredBits) := by
  cases i <;> rw [Instr.withOperandsOf, encode, Instr.ignoredBits, Instr.rowMask, Instr.rowMatch] <;>
    simp [placeReg_destReg, placeReg_srcReg1, placeReg_srcReg2, placeSigned_imm5, placeSigned_offset6,
      placeSigned_pcOffset9, placeSigned_pcOffset11, placeField_trapvect8, placeBit_eleven, placeBit_ten, placeBit_nine,
      BitVec.and_assoc, BitVec.or_assoc, ← BitVec.and_or_distrib_left, BitVec.and_or_distrib_right]

/-- A word is its bits under a mask and its bits outside it, on a set of bits that holds the mask. -/
theorem and_or_and_not {mask keep : Word} (hsub : keep &&& mask = mask) (w : Word) :
    w &&& mask ||| (w &&& ~~~mask &&& keep) = w &&& keep := by
  ext k hk
  have hbit : (keep[k] && mask[k]) = mask[k] := by simpa [hk] using congrArg (·.getLsbD k) hsub
  cases hmask : mask[k] <;> simp_all

/-- Settles O4: the row's match is the word under the row's mask, and the operands give back the other bits that are not
ignored. -/
theorem encodeDecodeKeepsExaminedBits : Obligations.EncodeDecodeKeepsExaminedBits := by
  intro w
  have hrow := and_rowMask_decode w
  calc encode (decode w) &&& ~~~(decode w).ignoredBits
      = encode ((decode w).withOperandsOf w) &&& ~~~(decode w).ignoredBits := by rw [← decode_of_row hrow]
    _ = w &&& (decode w).rowMask ||| (w &&& ~~~(decode w).rowMask &&& ~~~(decode w).ignoredBits) := by
      rw [encode_withOperandsOf, hrow]
    _ = w &&& ~~~(decode w).ignoredBits := and_or_and_not (not_ignoredBits_and_rowMask _) w

/-- Settles O1: the nineteen words, each by running the decoder. -/
theorem decodeOfWrittenWords : Obligations.DecodeOfWrittenWords := by
  unfold Obligations.DecodeOfWrittenWords
  decide

end Sys2Proof
end

section
/-! Proofs: the control instructions JSR, RET and TRAP (spec/44_control.md) and the decode fault of the three
unsupported opcodes (spec/60_exceptions.md section 1). -/

namespace Sys2Proof.Machine

/-- The link: the PC before goes to x[7], the target to the PC, and nothing else changes. -/
theorem State.jumpsTo_linkTo (s : State) (target : Word) : JumpsTo target [7] s (s.linkTo target) :=
  ⟨rfl, fun r hr => s.readReg_writeReg_of_ne 7 r s.pc (List.ne_of_not_mem_cons hr), ⟨rfl, rfl, rfl⟩, fun _ => rfl,
    ⟨rfl, rfl, rfl⟩, ⟨rfl, rfl⟩, ⟨rfl, rfl⟩⟩

/-- The link is the PC before, which is already incremented (R125). -/
@[simp] theorem State.readReg_linkTo_seven (s : State) (target : Word) : (s.linkTo target).readReg 7 = s.pc :=
  s.readReg_writeReg_self 7 s.pc

/-- The decode fault meets the frame that the statements use. -/
theorem State.takesDecodeFault_raiseDecodeFault (s : State) (op : BitVec 4) :
    TakesDecodeFault op s (s.raiseDecodeFault op) :=
  ⟨rfl, rfl, rfl, fun _ _ => rfl, ⟨rfl, rfl, rfl⟩, fun _ => rfl, ⟨rfl, rfl, rfl⟩, ⟨rfl, rfl⟩⟩

/-- Settles O21: opcode 0100, and the link to the target computed from the PC before. -/
theorem jumpToSubroutine : Obligations.JumpToSubroutine :=
  ⟨fun _ => decode_of_opcode_jsr,
    fun off s => ⟨_, rfl, s.readReg_linkTo_seven (s.pcRel11 off), s.jumpsTo_linkTo (s.pcRel11 off)⟩⟩

/-- Settles O22: opcode 1100, and a change of the PC alone, to x[7]. -/
theorem returnThroughRegisterSeven : Obligations.ReturnThroughRegisterSeven :=
  ⟨fun _ => decode_of_opcode_ret, fun s => ⟨_, rfl, s.jumpsTo_withPc (s.readReg 7)⟩⟩

/-- Settles O23: opcode 1111, and the link to the entry read from the vector table in the state before. -/
theorem trapThroughVectorTable : Obligations.TrapThroughVectorTable :=
  ⟨fun _ => decode_of_opcode_trap,
    fun vec s => ⟨_, rfl, s.readReg_linkTo_seven (s.trapEntry vec), s.jumpsTo_linkTo (s.trapEntry vec)⟩⟩

/-- Settles O24: the three opcodes, and the decode fault with each one's number. -/
theorem unsupportedOpcodesTakeFault : Obligations.UnsupportedOpcodesTakeFault :=
  ⟨fun _ => decode_of_opcode_1000, fun _ => decode_of_opcode_1001, fun _ => decode_of_opcode_1101, fun s =>
    ⟨⟨_, rfl, s.takesDecodeFault_raiseDecodeFault 8⟩, ⟨_, rfl, s.takesDecodeFault_raiseDecodeFault 9⟩,
      ⟨_, rfl, s.takesDecodeFault_raiseDecodeFault 13⟩⟩⟩

end Sys2Proof.Machine
end

section
/-! Proofs: the five things an instruction can do to the state (R73, R75, R103, R120), and which one each instruction
does. Every later statement about an instruction or a cycle is about these five. -/

namespace Sys2Proof.Machine

/-- What an instruction does, its operands read in the state it executes in. -/
inductive Effect where
  /-- `v` goes to DR, and the flags are set by it. -/
  | result (dr : Reg) (v : Word)
  /-- `v` is stored at the address `a`. -/
  | store (a v : Word)
  /-- The PC goes to x[7], and control to `target`. -/
  | link (target : Word)
  /-- Control goes to `target`, which is the next instruction when a branch is not taken. -/
  | jump (target : Word)
  /-- The decode fault. -/
  | fault (op : BitVec 4)

/-- The state that an effect leaves. -/
def Effect.apply (s : State) : Effect → State
  | .result dr v => s.writeDest dr v
  | .store a v => s.memWrite a v
  | .link target => s.linkTo target
  | .jump target => { s with pc := target }
  | .fault op => s.raiseDecodeFault op

/-- The effect of each instruction in the state it executes in. -/
def effectOf (s : State) : Instr → Effect
  | .br n z p off => .jump (if s.branchTaken n z p = true then s.pcRel9 off else s.pc)
  | .addReg dr sr1 sr2 => .result dr (s.readReg sr1 + s.readReg sr2)
  | .addImm dr sr1 imm => .result dr (s.readReg sr1 + sext 5 imm)
  | .ld dr off => .result dr (s.memRead (s.pcRel9 off))
  | .st sr off => .store (s.pcRel9 off) (s.readReg sr)
  | .jsr off => .link (s.pcRel11 off)
  | .andReg dr sr1 sr2 => .result dr (s.readReg sr1 &&& s.readReg sr2)
  | .andImm dr sr1 imm => .result dr (s.readReg sr1 &&& sext 5 imm)
  | .ldr dr base off => .result dr (s.memRead (s.baseRel6 base off))
  | .str sr base off => .store (s.baseRel6 base off) (s.readReg sr)
  | .unsupported1000 => .fault 0b1000
  | .unsupported1001 => .fault 0b1001
  | .ldi dr off => .result dr (s.memRead (s.indirect9 off))
  | .sti sr off => .store (s.indirect9 off) (s.readReg sr)
  | .ret => .jump (s.readReg 7)
  | .unsupported1101 => .fault 0b1101
  | .lea dr off => .result dr (s.pcRel9 off)
  | .trap vec => .link (s.trapEntry vec)

/-- Every instruction answers, from every state, the state its effect leaves. -/
theorem exec_eq_effect (i : Instr) (s : State) : exec i s = .next ((effectOf s i).apply s) := by
  cases i with
  | br n z p off => exact exec_br n z p off s
  | _ => rfl

/-! ### The tables of Sys2Proof/Safety.lean, read off the effect -/

/-- The register an effect writes. -/
def Effect.dest : Effect → Option Reg
  | .result dr _ => some dr
  | .link _ => some 7
  | .store _ _ => none
  | .jump _ => none
  | .fault _ => none

/-- The effect sets the flags. -/
def Effect.setsFlags : Effect → Bool
  | .result _ _ => true
  | .link _ => false
  | .store _ _ => false
  | .jump _ => false
  | .fault _ => false

/-- The address and the word of the store that an effect makes. -/
def Effect.storeArgs : Effect → Option (Word × Word)
  | .store a v => some (a, v)
  | .result _ _ => none
  | .link _ => none
  | .jump _ => none
  | .fault _ => none

theorem destOf_eq_dest (s : State) (i : Instr) : destOf i = (effectOf s i).dest := by cases i <;> rfl

theorem affectsFlags_eq_setsFlags (s : State) (i : Instr) : affectsFlags i = (effectOf s i).setsFlags := by
  cases i <;> rfl

theorem storeOf_eq_storeArgs (s : State) (i : Instr) : storeOf s i = (effectOf s i).storeArgs := by cases i <;> rfl

theorem Effect.eq_result_of_setsFlags {e : Effect} (h : e.setsFlags = true) : ∃ dr v, e = .result dr v := by
  cases e <;> simp_all [Effect.setsFlags]

theorem Effect.storeArgs_eq_some_iff {e : Effect} {a v : Word} : e.storeArgs = some (a, v) ↔ e = .store a v := by
  cases e <;> simp [Effect.storeArgs]

/-- An instruction stores `v` at `a` exactly when that is its effect. -/
theorem storeOf_eq_some_iff {s : State} {i : Instr} {a v : Word} :
    storeOf s i = some (a, v) ↔ effectOf s i = .store a v := by
  rw [storeOf_eq_storeArgs, Effect.storeArgs_eq_some_iff]

/-- A load leaves in its destination the word read at its address. -/
theorem effectOf_of_loadOf {s : State} {i : Instr} {dr : Reg} {a : Word} (h : loadOf s i = some (dr, a)) :
    effectOf s i = .result dr (s.memRead a) := by
  cases i with
  | ld | ldi | ldr =>
    obtain ⟨rfl, rfl⟩ : _ = dr ∧ _ = a := by simpa [loadOf] using h
    rfl
  | _ => simp [loadOf] at h

/-- The PC that the effect leaves is that of the table of R13. -/
theorem pc_apply_effectOf (s : State) (i : Instr) : ((effectOf s i).apply s).pc = pcAfter s i := by
  cases i with
  | br n z p off =>
    simp only [effectOf, Effect.apply, pcAfter, s.branchTaken_iff n z p]
    rfl
  | st | sti | str => exact s.memWrite_pc _ _
  | _ => rfl

/-- The three unsupported opcodes have the decode fault for their effect. -/
theorem effectOf_of_unsupported (s : State) {i : Instr} (h : i.opcode.toNat ∈ [8, 9, 13]) :
    effectOf s i = .fault i.opcode := by
  cases i with
  | unsupported1000 | unsupported1001 | unsupported1101 => rfl
  | _ => simp [Instr.opcode] at h

/-- No other instruction takes the decode fault, and each records its own opcode. -/
theorem unsupported_of_effectOf {s : State} {i : Instr} {op : BitVec 4} (h : effectOf s i = .fault op) :
    op = i.opcode ∧ i.opcode.toNat ∈ [8, 9, 13] := by
  cases i with
  | unsupported1000 | unsupported1001 | unsupported1101 =>
    obtain rfl : _ = op := by simpa [effectOf] using h
    exact ⟨rfl, by decide⟩
  | _ => simp [effectOf] at h

/-- The opcode of the row a word decodes to is in bits 15:12. -/
theorem opcode_decode (w : Word) : (decode w).opcode = w.extractLsb' 12 4 :=
  (extractLsb'_opcode_of_row (and_rowMask_decode w)).symm

/-! ### What every effect leaves unchanged -/

section
variable (s : State) (e : Effect)

@[simp] theorem Effect.apply_ir : (e.apply s).ir = s.ir := by
  cases e with
  | store a v => exact s.memWrite_ir a v
  | _ => rfl

@[simp] theorem Effect.apply_out : (e.apply s).out = s.out := by
  cases e with
  | store a v => exact s.memWrite_out a v
  | _ => rfl

/-- No general register but the effect's own destination changes. -/
theorem Effect.readReg_apply_of_ne {r : Reg} (hr : e.dest ≠ some r) : (e.apply s).readReg r = s.readReg r := by
  cases e with
  | result dr v => exact s.readReg_writeReg_of_ne dr r v fun h => hr (h ▸ rfl)
  | link target => exact s.readReg_writeReg_of_ne 7 r s.pc fun h => hr (h ▸ rfl)
  | store a v => exact s.readReg_memWrite r a v
  | jump target => rfl
  | fault op => rfl

/-- Only an effect that sets the flags changes them. -/
theorem Effect.sameFlags_apply (hflags : e.setsFlags = false) : SameFlags s (e.apply s) := by
  cases e with
  | result dr v => simp [Effect.setsFlags] at hflags
  | store a v => exact ⟨s.memWrite_n a v, s.memWrite_z a v, s.memWrite_p a v⟩
  | _ => exact ⟨rfl, rfl, rfl⟩

/-- Only a store changes the memory array or a device register. -/
theorem Effect.sameMemory_apply (hstore : e.storeArgs = none) :
    SameMemory s (e.apply s) ∧ SameDevices s (e.apply s) := by
  cases e with
  | store a v => simp [Effect.storeArgs] at hstore
  | _ => exact ⟨fun _ => rfl, rfl, rfl, rfl⟩

/-- Only the decode fault changes the run state or the fault record. -/
theorem Effect.sameRun_apply (hfault : ∀ op, e ≠ .fault op) : SameRun s (e.apply s) := by
  cases e with
  | fault op => exact absurd rfl (hfault op)
  | store a v => exact ⟨s.memWrite_run a v, s.memWrite_fault a v⟩
  | _ => exact ⟨rfl, rfl⟩

end

/-- Settles O27: a store is `MemWrite`, and every other effect leaves memory and the devices. -/
theorem onlyStoresChangeMemory : Obligations.OnlyStoresChangeMemory := by
  refine fun i s => ⟨_, exec_eq_effect i s, fun a v hstore => ?_, fun hnone => ?_⟩
  · rw [storeOf_eq_some_iff.1 hstore]
    exact s.storesAt_memWrite a v
  · exact (effectOf s i).sameMemory_apply s ((storeOf_eq_storeArgs s i).symm.trans hnone)

end Sys2Proof.Machine
end

section
/-! Proofs: what a read gives after `MemWrite`, and `setcc` case by case (R33, R74). -/

namespace Sys2Proof.Machine

/-- A read after a store, at every address (R33, D10). -/
theorem State.memRead_memWrite (s : State) (a v b : Word) :
    (s.memWrite a v).memRead b =
      if b = a then v else if a = 0xFE06 ∧ b = 0xFE04 then 0x0000 else s.memRead b := by
  split
  next hself => rw [hself, s.memRead_memWrite_self]
  next hother =>
    split
    next hstatus =>
      obtain ⟨rfl, rfl⟩ := hstatus
      rfl
    next hstatus => exact s.memRead_memWrite_of_ne v hother hstatus

/-- Settles O26: the frame of the stores, and the read after a store. -/
theorem memWriteAtEachAddress : Obligations.MemWriteAtEachAddress :=
  fun s a v => ⟨s.storesAt_memWrite a v, s.memRead_memWrite a v⟩

/-- Settles O30: the three cases of R74 from the three flag equations, and the signed reading from
`flagsOfSign_setcc`. -/
theorem setccByValue : Obligations.SetccByValue := by
  refine fun s v => ⟨fun hneg => ?_, fun hzero => ?_, fun hpos hne => ?_, s.flagsOfSign_setcc v, rfl⟩
  · have hne : v ≠ 0 := by rintro rfl; simp at hneg
    simpa [hneg] using hne
  · simp [hzero]
  · simpa [hpos] using hne

end Sys2Proof.Machine
end

section
/-! Proofs: the display flush and the start of the cycle (R71, R72, R78). -/

namespace Sys2Proof.Machine

section
variable (s : State)

/-- The flush, written out (D9, D10). -/
theorem State.displayFlush_eq_ite :
    s.displayFlush =
      if s.dsr[15] = true then s else { s with out := s.out ++ [s.ddr.extractLsb' 0 8], dsr := 0x8000 } := by
  rw [← BitVec.setWidth_eq_extractLsb' (by decide)]
  rfl

theorem State.displayFlush_out :
    s.displayFlush.out = if s.dsr[15] = true then s.out else s.out ++ [s.ddr.extractLsb' 0 8] := by
  rw [s.displayFlush_eq_ite, apply_ite State.out]

theorem State.displayFlush_dsr : s.displayFlush.dsr = if s.dsr[15] = true then s.dsr else 0x8000 := by
  rw [s.displayFlush_eq_ite, apply_ite State.dsr]

/-- The flush changes the output and the DSR alone. -/
theorem State.displayFlush_eq : s.displayFlush = { s with out := s.displayFlush.out, dsr := s.displayFlush.dsr } := by
  rw [s.displayFlush_eq_ite]
  split <;> rfl

/-- The flush changes what a read gives at the DSR's address alone. -/
theorem State.memRead_displayFlush {a : Word} (ha : a ≠ Config.dsrAddr) :
    s.displayFlush.memRead a = s.memRead a := by
  rw [s.displayFlush_eq]
  simp [State.memRead, ha]

/-- The state in which the instruction executes: flushed, the word in the IR, the PC incremented. -/
theorem State.beginCycle_eq :
    s.beginCycle = { s.displayFlush with ir := s.displayFlush.memRead s.pc, pc := s.pc + 1 } := by
  rw [State.beginCycle, State.fetch, s.displayFlush_pc]

@[simp] theorem State.beginCycle_ir : s.beginCycle.ir = s.displayFlush.memRead s.pc := by simp [State.beginCycle]
@[simp] theorem State.beginCycle_pc : s.beginCycle.pc = s.pc + 1 := by simp [State.beginCycle]
@[simp] theorem State.beginCycle_n : s.beginCycle.n = s.n := by simp [State.beginCycle]
@[simp] theorem State.beginCycle_z : s.beginCycle.z = s.z := by simp [State.beginCycle]
@[simp] theorem State.beginCycle_p : s.beginCycle.p = s.p := by simp [State.beginCycle]
@[simp] theorem State.beginCycle_mem : s.beginCycle.mem = s.mem := by simp [State.beginCycle]
@[simp] theorem State.beginCycle_dsr : s.beginCycle.dsr = s.displayFlush.dsr := by simp [State.beginCycle]
@[simp] theorem State.beginCycle_ddr : s.beginCycle.ddr = s.ddr := by simp [State.beginCycle]
@[simp] theorem State.beginCycle_mcr : s.beginCycle.mcr = s.mcr := by simp [State.beginCycle]
@[simp] theorem State.beginCycle_run : s.beginCycle.run = s.run := by simp [State.beginCycle]
@[simp] theorem State.beginCycle_fault : s.beginCycle.fault = s.fault := by simp [State.beginCycle]
@[simp] theorem State.beginCycle_out : s.beginCycle.out = s.displayFlush.out := by simp [State.beginCycle]
@[simp] theorem State.readReg_beginCycle (r : Reg) : s.beginCycle.readReg r = s.readReg r := by
  simp [State.beginCycle]

end

/-- Settles O32: the three equations of the flush. -/
theorem displayFlushEmitsLowByte : Obligations.DisplayFlushEmitsLowByte :=
  fun s => ⟨s.displayFlush_out, s.displayFlush_dsr, s.displayFlush_eq⟩

end Sys2Proof.Machine
end

section
/-! Proofs: a step of a RUNNING core is one effect between the start of the cycle and the power check (R78); a step of a
stopped core answers the same state (R77). -/

namespace Sys2Proof.Machine

/-- The effect of the instruction that the cycle from `s` runs. -/
def State.cycleEffect (s : State) : Effect := effectOf s.beginCycle (decode s.beginCycle.ir)

theorem State.cycleEffect_of_decode {s : State} {i : Instr} (hdecode : decode s.beginCycle.ir = i) :
    s.cycleEffect = effectOf s.beginCycle i := by
  rw [State.cycleEffect, hdecode]

/-- The state after the cycle from `s`. -/
def State.afterCycle (s : State) : State := (s.cycleEffect.apply s.beginCycle).powerCheck

theorem step_of_running {s : State} (hrun : s.run = .running) : step s = .next s.afterCycle := by
  rw [step, hrun]
  show finishCycle (exec (decode s.beginCycle.ir) s.beginCycle) = _
  rw [exec_eq_effect]
  rfl

theorem step_of_stopped {s : State} (hstopped : s.run = .halted ∨ s.run = .faulted) : step s = .next s := by
  obtain hrun | hrun := hstopped <;> simp [step, hrun, terminalStep]

/-- Every step answers: the state after the cycle while RUNNING, the same state when stopped. -/
theorem step_eq_next_iff {s t : State} :
    step s = .next t ↔ (s.run = .running ∧ t = s.afterCycle) ∨ ((s.run = .halted ∨ s.run = .faulted) ∧ t = s) := by
  cases hrun : s.run with
  | running => simp [step_of_running hrun, eq_comm]
  | halted => simp [step_of_stopped (.inl hrun), eq_comm]
  | faulted => simp [step_of_stopped (.inr hrun), eq_comm]

/-- Settles O33: `exec` answers the effect's state, and `step` the state after the cycle. -/
theorem runningCoreIsNeverStuck : Obligations.RunningCoreIsNeverStuck :=
  ⟨fun i s => ⟨_, exec_eq_effect i s⟩, fun _ hrun => ⟨_, step_of_running hrun⟩⟩

/-- Settles O34, by induction on the number of steps. -/
theorem terminalStatesAbsorb : Obligations.TerminalStatesAbsorb := by
  intro s k hstopped
  have hstep : core.step s = .next s := step_of_stopped hstopped
  induction k with
  | zero => rfl
  | succ k ih =>
    show Host.Core.run core (k + 1) s = .next s
    simp only [Host.Core.run, hstep, ih]

/-- The power check, written out (R76). -/
theorem State.powerCheck_eq (s : State) :
    s.powerCheck = if s.run = .running ∧ s.mcr[15] = false then { s with run := .halted } else s := rfl

/-- Settles O31: `step` is this by definition, with the start of the cycle and the power check written out. -/
theorem stepRunsDecodedInstruction : Obligations.StepRunsDecodedInstruction := by
  rintro s i t hrun rfl hexec
  rw [← s.beginCycle_eq] at hexec
  rw [step, hrun]
  show finishCycle (exec (decode s.beginCycle.ir) s.beginCycle) = _
  rw [s.beginCycle_ir, hexec, ← t.powerCheck_eq]
  rfl

/-! ### What a whole cycle leaves in each field -/

section
variable (s : State)

@[simp] theorem State.afterCycle_ir : s.afterCycle.ir = s.displayFlush.memRead s.pc := by simp [State.afterCycle]
@[simp] theorem State.afterCycle_out : s.afterCycle.out = s.displayFlush.out := by simp [State.afterCycle]
theorem State.afterCycle_pc : s.afterCycle.pc = pcAfter s.beginCycle (decode s.beginCycle.ir) := by
  rw [State.afterCycle, State.powerCheck_pc, State.cycleEffect, pc_apply_effectOf]

theorem State.readReg_afterCycle (r : Reg) :
    s.afterCycle.readReg r = (s.cycleEffect.apply s.beginCycle).readReg r := by
  simp [State.afterCycle]

/-- The power check leaves the flags. -/
theorem State.flagsOfSign_powerCheck {s : State} {v : Word} (hflags : FlagsOfSign v s) :
    FlagsOfSign v s.powerCheck := by
  simpa only [FlagsOfSign, State.powerCheck_n, State.powerCheck_z, State.powerCheck_p] using hflags

/-- The state after a cycle whose instruction ends in `writeDest` (R16). -/
theorem State.afterCycle_of_result {s : State} {dr : Reg} {v : Word} (hresult : s.cycleEffect = .result dr v) :
    s.afterCycle.readReg dr = v ∧ FlagsOfSign v s.afterCycle := by
  obtain ⟨hdest, hflags, -⟩ := s.beginCycle.writesDest_writeDest dr v
  rw [s.readReg_afterCycle, State.afterCycle, hresult]
  exact ⟨hdest, State.flagsOfSign_powerCheck hflags⟩

/-- The decode fault is made in a cycle exactly when the fetched word has opcode 8, 9 or 13. -/
theorem State.cycleEffect_eq_fault_iff (op : BitVec 4) :
    s.cycleEffect = .fault op ↔
      op = s.beginCycle.ir.extractLsb' 12 4 ∧ (s.beginCycle.ir.extractLsb' 12 4).toNat ∈ [8, 9, 13] := by
  rw [← opcode_decode]
  exact ⟨unsupported_of_effectOf, fun ⟨hop, hmem⟩ => hop ▸ effectOf_of_unsupported s.beginCycle hmem⟩

/-- The state after a cycle that takes the decode fault (R120). -/
theorem State.afterCycle_of_fault {op : BitVec 4} (hfault : s.cycleEffect = .fault op) :
    s.afterCycle = s.beginCycle.raiseDecodeFault op := by
  rw [State.afterCycle, hfault]
  exact State.powerCheck_of_stopped _ (by simp [Effect.apply])

end

/-- The power check halts a RUNNING core exactly when the power bit is clear. -/
theorem State.powerCheck_run {s : State} (hrun : s.run = .running) :
    s.powerCheck.run = if s.mcr[15] = true then .running else .halted := by
  cases hpower : s.mcr[15] <;> simp [s.powerCheck_eq, hrun, hpower]

/-- A cycle that takes no decode fault ends RUNNING or HALTED by the power bit, with the fault record as before. -/
theorem State.afterCycle_of_no_fault {s : State} (hrun : s.run = .running) (hfault : ∀ op, s.cycleEffect ≠ .fault op) :
    s.afterCycle.run = (if s.afterCycle.mcr[15] = true then .running else .halted) ∧ s.afterCycle.fault = s.fault := by
  obtain ⟨hsame, hrecord⟩ := s.cycleEffect.sameRun_apply s.beginCycle hfault
  rw [State.afterCycle, State.powerCheck_mcr, State.powerCheck_fault, hrecord, s.beginCycle_fault]
  exact ⟨State.powerCheck_run (hsame.trans (s.beginCycle_run.trans hrun)), rfl⟩

end Sys2Proof.Machine
end

section
/-! Proofs: the statements about every cycle of a RUNNING core: the PC, the flags, the registers, the output, the decode
fault (R10, R13, R15, R22, R120). -/

namespace Sys2Proof.Machine

/-- Settles O36: the effect of the cycle is the decode fault exactly for the three opcodes, and no other effect touches
the run state or the record. -/
theorem faultsExactlyOnUnsupportedOpcode : Obligations.FaultsExactlyOnUnsupportedOpcode := by
  rintro s w hrun rfl
  refine ⟨_, step_of_running hrun, ?_⟩
  have hiff := s.cycleEffect_eq_fault_iff
  rw [s.beginCycle_ir] at hiff
  by_cases hop : ((s.displayFlush.memRead s.pc).extractLsb' 12 4).toNat ∈ [8, 9, 13]
  · have hafter := s.afterCycle_of_fault ((hiff _).2 ⟨rfl, hop⟩)
    refine ⟨iff_of_true (by rw [hafter]; rfl) hop, fun _ => ?_, fun hnot => absurd hop hnot⟩
    rw [hafter, s.beginCycle_eq]
    rfl
  · obtain ⟨hafter, hrecord⟩ := State.afterCycle_of_no_fault hrun fun op hfault => hop ((hiff op).1 hfault).2
    refine ⟨iff_of_false ?_ hop, fun hmem => absurd hmem hop, fun _ => hrecord⟩
    rw [hafter]
    split <;> simp

/-- Settles O37: the PC of the effect, which the power check leaves. -/
theorem pcAfterEveryInstruction : Obligations.PcAfterEveryInstruction := by
  rintro s w hrun rfl
  refine ⟨_, step_of_running hrun, ?_, fun hunsupported => ?_⟩
  · rw [s.afterCycle_pc, ← s.beginCycle_eq, s.beginCycle_ir]
  · rw [← s.beginCycle_ir] at hunsupported
    have hfault : s.cycleEffect = .fault (decode s.beginCycle.ir).opcode := by
      refine effectOf_of_unsupported _ ?_
      obtain h | h | h := hunsupported <;> rw [h] <;> decide
    simp [s.afterCycle_of_fault hfault]

/-- Settles O38: the effect that sets the flags sets them by its destination's new value, every other leaves them. -/
theorem flagsAfterEveryInstruction : Obligations.FlagsAfterEveryInstruction := by
  rintro s i hrun rfl
  refine ⟨_, step_of_running hrun, fun hsets => ?_, fun hkeeps => ?_⟩
  · obtain ⟨dr, v, heffect⟩ :=
      Effect.eq_result_of_setsFlags ((affectsFlags_eq_setsFlags s.beginCycle _).symm.trans hsets)
    obtain ⟨hdest, hflags⟩ := State.afterCycle_of_result heffect
    refine ⟨dr, ?_, hdest ▸ hflags⟩
    rw [destOf_eq_dest s.beginCycle, heffect]
    rfl
  · rw [affectsFlags_eq_setsFlags s.beginCycle] at hkeeps
    obtain ⟨hn, hz, hp⟩ := s.cycleEffect.sameFlags_apply s.beginCycle hkeeps
    exact ⟨by simp [State.afterCycle, hn], by simp [State.afterCycle, hz], by simp [State.afterCycle, hp]⟩

/-- Settles O39: no effect writes another register than its destination. -/
theorem onlyDestinationRegisterChanges : Obligations.OnlyDestinationRegisterChanges := by
  refine fun s hrun => ⟨_, step_of_running hrun, fun r hr => ?_⟩
  rw [destOf_eq_dest s.beginCycle] at hr
  rw [s.readReg_afterCycle, s.cycleEffect.readReg_apply_of_ne _ hr, s.readReg_beginCycle]

/-- Settles O40: no effect and no power check emits, so the output is that of the flush. -/
theorem outputGrowsOnlyByFlush : Obligations.OutputGrowsOnlyByFlush :=
  fun s hrun => ⟨_, step_of_running hrun, s.afterCycle_out.trans s.displayFlush_out⟩

end Sys2Proof.Machine
end

section
/-! Proofs: stores in a cycle (R76, R79): the power-off store, the character for the display, the next instruction. -/

namespace Sys2Proof.Machine

/-- `MemWrite` writes the MCR at its own address alone. -/
theorem State.memWrite_mcr (s : State) (a v : Word) : (s.memWrite a v).mcr = if a = 0xFFFE then v else s.mcr := by
  obtain ⟨rfl, hw⟩ | ⟨rfl, hw⟩ | ⟨rfl, hw⟩ | ⟨-, -, hmcr, hw⟩ := s.memWrite_cases a v
  · rw [hw]; rfl
  · rw [hw]; rfl
  · rw [hw]; rfl
  · rw [hw]; exact (if_neg hmcr).symm

/-- No effect but a store to 0xFFFE changes the MCR. -/
theorem Effect.apply_mcr_of_ne {e : Effect} (s : State) (he : ∀ v, e ≠ .store 0xFFFE v) : (e.apply s).mcr = s.mcr := by
  cases e with
  | store a v => exact (s.memWrite_mcr a v).trans (if_neg fun ha => he v (by rw [ha]))
  | _ => rfl

theorem State.afterCycle_mcr_of_ne {s : State} (he : ∀ v, s.cycleEffect ≠ .store 0xFFFE v) :
    s.afterCycle.mcr = s.mcr := by
  rw [State.afterCycle, State.powerCheck_mcr, s.cycleEffect.apply_mcr_of_ne _ he, s.beginCycle_mcr]

theorem State.afterCycle_mcr_of_store {s : State} {v : Word} (hstore : s.cycleEffect = .store 0xFFFE v) :
    s.afterCycle.mcr = v := by
  rw [State.afterCycle, State.powerCheck_mcr, hstore]
  exact s.beginCycle.memWrite_mcr 0xFFFE v

/-- A powered core halts in a cycle exactly when the power bit is clear at the cycle's end. -/
theorem State.afterCycle_halted_iff {s : State} (hrun : s.run = .running) (hpower : s.mcr[15] = true) :
    s.afterCycle.run = .halted ↔ s.afterCycle.mcr[15] = false := by
  by_cases hfault : ∃ op, s.cycleEffect = .fault op
  · obtain ⟨op, hfault⟩ := hfault
    simp [s.afterCycle_of_fault hfault, hpower]
  · obtain ⟨hafter, -⟩ := State.afterCycle_of_no_fault hrun (not_exists.1 hfault)
    rw [hafter]
    cases s.afterCycle.mcr[15] <;> simp

/-- Settles O35: the MCR has bit 15 clear at the end of the cycle exactly when the cycle stored such a word there. -/
theorem haltsExactlyOnPowerOff : Obligations.HaltsExactlyOnPowerOff := by
  intro s hrun hpower
  have hhalted := State.afterCycle_halted_iff hrun hpower
  refine ⟨_, step_of_running hrun, hhalted.trans ?_, hhalted, fun v hstore =>
    State.afterCycle_mcr_of_store (storeOf_eq_some_iff.1 hstore)⟩
  by_cases hstores : ∃ v, s.cycleEffect = .store 0xFFFE v
  · obtain ⟨v, hstore⟩ := hstores
    rw [State.afterCycle_mcr_of_store hstore]
    refine ⟨fun hv => ⟨v, storeOf_eq_some_iff.2 hstore, hv⟩, ?_⟩
    rintro ⟨v', hstore', hv⟩
    obtain rfl : v = v' := by injection hstore.symm.trans (storeOf_eq_some_iff.1 hstore')
    exact hv
  · have hmcr := State.afterCycle_mcr_of_ne (not_exists.1 hstores)
    refine iff_of_false (by simp [hmcr, hpower]) ?_
    rintro ⟨v, hstore, -⟩
    exact hstores ⟨v, storeOf_eq_some_iff.1 hstore⟩

/-- A store elsewhere than to 0xFFFE is all that a powered core's cycle does after its start. -/
theorem State.afterCycle_of_store {s : State} {a v : Word} (hpower : s.mcr[15] = true)
    (hstore : s.cycleEffect = .store a v) (ha : a ≠ 0xFFFE) : s.afterCycle = s.beginCycle.memWrite a v := by
  rw [State.afterCycle, hstore]
  refine State.powerCheck_of_powered _ ?_
  show (s.beginCycle.memWrite a v).mcr[15] = true
  simp only [State.memWrite_mcr, if_neg ha, State.beginCycle_mcr, hpower]

/-- Settles O41: the store leaves the DSR pending and the core RUNNING, and the next cycle starts with the flush. -/
theorem storedCharacterLeavesNextCycle : Obligations.StoredCharacterLeavesNextCycle := by
  intro s v hrun hpower hstore
  have hafter := State.afterCycle_of_store hpower (storeOf_eq_some_iff.1 hstore) (by decide)
  have hrun' : s.afterCycle.run = .running := by rw [hafter, State.memWrite_run, s.beginCycle_run, hrun]
  have hdsr : s.afterCycle.dsr = 0x0000 := by rw [hafter]; rfl
  have hddr : s.afterCycle.ddr = v := by rw [hafter]; rfl
  refine ⟨_, _, step_of_running hrun, hrun', hdsr, hddr, s.afterCycle_out, step_of_running hrun', ?_⟩
  rw [State.afterCycle_out, State.displayFlush_out, hdsr, hddr]
  rfl

/-- Settles O28: the store is at the PC of the next cycle, and the flush between them does not touch a memory cell. -/
theorem storeSeenByNextFetch : Obligations.StoreSeenByNextFetch := by
  intro s sr hrun hpower hfetch hdevice
  have hir : s.beginCycle.ir = encode (.st sr 0) := s.beginCycle_ir.trans hfetch
  have hdecode : decode s.beginCycle.ir = .st sr 0 := hir ▸ decodeEncodeRoundTrip _ rfl
  have hstore : s.cycleEffect = .store (s.pc + 1) (s.readReg sr) := by
    have haddr : s.beginCycle.pcRel9 0 = s.pc + 1 := by simp [State.pcRel9, sext]
    rw [State.cycleEffect_of_decode hdecode, effectOf, haddr, s.readReg_beginCycle]
  have hafter := State.afterCycle_of_store hpower hstore fun ha => hdevice (.inr (.inr ha))
  have hrun' : s.afterCycle.run = .running := by rw [hafter, State.memWrite_run, s.beginCycle_run, hrun]
  refine ⟨_, _, step_of_running hrun, hrun', step_of_running hrun', ?_⟩
  have hpc : s.afterCycle.pc = s.pc + 1 := by rw [hafter, State.memWrite_pc, s.beginCycle_pc]
  rw [State.afterCycle_ir, State.memRead_displayFlush _ fun ha => hdevice (.inl (hpc ▸ ha)), hpc, hafter,
    State.memRead_memWrite_self]

end Sys2Proof.Machine
end

section
/-! Proofs: one instruction's effect depends on what it reads alone, so an effect commutes with a change that it does
not see (R14, R22). -/

namespace Sys2Proof.Machine

/-- Two states that answer the same registers, PC, flags and reads give every instruction the same effect. -/
theorem effectOf_congr {s t : State} (hregs : ∀ r, t.readReg r = s.readReg r) (hpc : t.pc = s.pc)
    (hflags : SameFlags s t) (hread : ∀ a, t.memRead a = s.memRead a) (i : Instr) : effectOf t i = effectOf s i := by
  obtain ⟨hn, hz, hp⟩ := hflags
  cases i with
  | br n z p off =>
    have htaken : t.branchTaken n z p = s.branchTaken n z p := by simp only [State.branchTaken, hn, hz, hp]
    simp only [effectOf, htaken, State.pcRel9, hpc]
  | _ =>
    simp only [effectOf, State.pcRel9, State.pcRel11, State.baseRel6, State.indirect9, State.trapEntry, hregs, hpc,
      hread]

/-! ### The stale IR -/

/-- The fetch overwrites the IR, and nothing before it reads that. -/
theorem State.beginCycle_withIr (s : State) (x : Word) : { s with ir := x }.beginCycle = s.beginCycle := by
  have hflush : { s with ir := x }.displayFlush = { s.displayFlush with ir := x } := by
    cases hready : s.displayReady with
    | true =>
      rw [s.displayFlush_of_ready hready]
      exact State.displayFlush_of_ready { s with ir := x } hready
    | false =>
      rw [s.displayFlush_of_pending hready]
      exact State.displayFlush_of_pending { s with ir := x } hready
  rw [State.beginCycle, hflush]
  rfl

/-- Settles O44: the two cycles start alike. -/
theorem staleIrUnobservable : Obligations.StaleIrUnobservable := by
  intro s x hrun
  have hrun' : { s with ir := x }.run = .running := hrun
  rw [step_of_running hrun, step_of_running hrun', State.afterCycle, State.afterCycle, State.cycleEffect,
    State.cycleEffect, s.beginCycle_withIr x]

/-! ### The output stream -/

/-- The state with more bytes before its output. -/
def State.prependOut (s : State) (o : List Byte) : State := { s with out := o ++ s.out }

section
variable (s : State) (o : List Byte)

theorem State.beginCycle_prependOut : (s.prependOut o).beginCycle = s.beginCycle.prependOut o := by
  have hflush : (s.prependOut o).displayFlush = s.displayFlush.prependOut o := by
    cases hready : s.displayReady with
    | true =>
      rw [s.displayFlush_of_ready hready]
      exact State.displayFlush_of_ready (s.prependOut o) hready
    | false =>
      rw [s.displayFlush_of_pending hready, State.displayFlush_of_pending (s.prependOut o) hready]
      simp [State.prependOut]
  rw [State.beginCycle, hflush]
  rfl

theorem State.memWrite_prependOut (a v : Word) : (s.prependOut o).memWrite a v = (s.memWrite a v).prependOut o := by
  unfold State.memWrite
  repeat' split
  all_goals rfl

theorem Effect.apply_prependOut (e : Effect) : e.apply (s.prependOut o) = (e.apply s).prependOut o := by
  cases e with
  | store a v => exact s.memWrite_prependOut o a v
  | _ => rfl

theorem State.powerCheck_prependOut : (s.prependOut o).powerCheck = s.powerCheck.prependOut o := by
  by_cases hoff : s.run = .running ∧ s.powered = false
  · obtain ⟨hrun, hpower⟩ := hoff
    rw [s.powerCheck_of_off hrun hpower]
    exact State.powerCheck_of_off (s.prependOut o) hrun hpower
  · rw [State.powerCheck, State.powerCheck, if_neg hoff]
    exact if_neg hoff

theorem State.afterCycle_prependOut : (s.prependOut o).afterCycle = s.afterCycle.prependOut o := by
  have heffect : (s.prependOut o).cycleEffect = s.cycleEffect := by
    rw [State.cycleEffect, s.beginCycle_prependOut]
    exact effectOf_congr (fun _ => rfl) rfl ⟨rfl, rfl, rfl⟩ (fun _ => rfl) _
  rw [State.afterCycle, heffect, s.beginCycle_prependOut, Effect.apply_prependOut, State.powerCheck_prependOut,
    ← State.afterCycle]

end

/-- Settles O45: every part of the cycle leaves the earlier output where it is and reads none of it. -/
theorem outputUnobservable : Obligations.OutputUnobservable := by
  intro s t o hstep
  obtain ⟨hrun, rfl⟩ | ⟨hstopped, rfl⟩ := step_eq_next_iff.1 hstep
  · exact step_eq_next_iff.2 (.inl ⟨hrun, (s.afterCycle_prependOut o).symm⟩)
  · exact step_eq_next_iff.2 (.inr ⟨hstopped, rfl⟩)

end Sys2Proof.Machine
end

section
/-! Proofs: the cells behind the device addresses (R34): machines that differ in those alone run alike. -/

namespace Sys2Proof.Machine

/-- The two memories hold the same word at every address that is no device register. -/
def Memory.AgreeOffDevices (m m' : Memory) : Prop := ∀ a : Word, ¬isDevice a → m'.read a.toNat = m.read a.toNat

/-- The state with another memory array. -/
def State.withMem (s : State) (m : Memory) : State := { s with mem := m }

section
variable {s : State} {m : Memory} (hagree : s.mem.AgreeOffDevices m)
include hagree

/-- No read meets a cell behind a device address. -/
theorem State.memRead_withMem (a : Word) : (s.withMem m).memRead a = s.memRead a := by
  by_cases ha : isDevice a
  · obtain rfl | rfl | rfl := ha <;> rfl
  · rw [s.memRead_of_not_isDevice ha, State.memRead_of_not_isDevice (s.withMem m) ha]
    exact hagree a ha

/-- The fetch reads the same word and the rest of the cycle's start does not touch memory. -/
theorem State.beginCycle_withMem : (s.withMem m).beginCycle = s.beginCycle.withMem m := by
  have hflush : (s.withMem m).displayFlush = s.displayFlush.withMem m := by
    cases hready : s.displayReady with
    | true =>
      rw [s.displayFlush_of_ready hready]
      exact State.displayFlush_of_ready (s.withMem m) hready
    | false =>
      rw [s.displayFlush_of_pending hready]
      exact State.displayFlush_of_pending (s.withMem m) hready
  have hagree' : s.displayFlush.mem.AgreeOffDevices m := by rwa [s.displayFlush_mem]
  rw [State.beginCycle_eq, s.beginCycle_eq, hflush, State.memRead_withMem hagree']
  rfl

theorem effectOf_withMem (i : Instr) : effectOf (s.withMem m) i = effectOf s i := by
  refine effectOf_congr (s := s) (t := s.withMem m) (fun _ => rfl) rfl ⟨rfl, rfl, rfl⟩ ?_ i
  exact State.memRead_withMem hagree

end

/-- No store reaches a cell behind a device address. -/
theorem State.memWrite_mem_read_of_isDevice (s : State) (a v : Word) {b : Word} (hb : isDevice b) :
    (s.memWrite a v).mem.read b.toNat = s.mem.read b.toNat := by
  by_cases hab : b = a
  · rw [s.memWrite_mem_of_isDevice v (hab ▸ hb)]
  · exact s.memWrite_mem_read_of_ne v hab

/-- `t'` is `t` but for the cells behind the device addresses, and these are in both as they were in `m` and in `s`. -/
def ShadowsKept (s : State) (m : Memory) (t t' : State) : Prop :=
  ∃ m' : Memory, t' = t.withMem m' ∧ t.mem.AgreeOffDevices m' ∧
    ∀ a : Word, isDevice a → m'.read a.toNat = m.read a.toNat ∧ t.mem.read a.toNat = s.mem.read a.toNat

theorem State.memWrite_shadowsKept {s : State} {m : Memory} (hagree : s.mem.AgreeOffDevices m) (a v : Word) :
    ShadowsKept s m (s.memWrite a v) ((s.withMem m).memWrite a v) := by
  refine ⟨((s.withMem m).memWrite a v).mem, ?_, fun b hb => ?_, fun b hb => ?_⟩
  · unfold State.memWrite
    repeat' split
    all_goals rfl
  · rw [← State.memRead_of_not_isDevice _ hb, ← State.memRead_of_not_isDevice _ hb, State.memRead_memWrite,
      State.memRead_memWrite, State.memRead_withMem hagree]
  · exact ⟨State.memWrite_mem_read_of_isDevice _ a v hb, State.memWrite_mem_read_of_isDevice _ a v hb⟩

theorem Effect.apply_shadowsKept {s : State} {m : Memory} (hagree : s.mem.AgreeOffDevices m) (e : Effect) :
    ShadowsKept s m (e.apply s) (e.apply (s.withMem m)) := by
  cases e with
  | store a v => exact State.memWrite_shadowsKept hagree a v
  | _ => exact ⟨m, rfl, hagree, fun _ _ => ⟨rfl, rfl⟩⟩

theorem State.powerCheck_withMem (s : State) (m : Memory) :
    (s.withMem m).powerCheck = s.powerCheck.withMem m := by
  by_cases hoff : s.run = .running ∧ s.powered = false
  · obtain ⟨hrun, hpower⟩ := hoff
    rw [s.powerCheck_of_off hrun hpower]
    exact State.powerCheck_of_off (s.withMem m) hrun hpower
  · rw [State.powerCheck, State.powerCheck, if_neg hoff]
    exact if_neg hoff

/-- The two cycles start alike, have the same effect, and no effect reaches a cell behind a device address. -/
theorem State.afterCycle_shadowsKept {s : State} {m : Memory} (hagree : s.mem.AgreeOffDevices m) :
    ShadowsKept s m s.afterCycle (s.withMem m).afterCycle := by
  have hagree' : s.beginCycle.mem.AgreeOffDevices m := by rwa [s.beginCycle_mem]
  have heffect : (s.withMem m).cycleEffect = s.cycleEffect := by
    rw [State.cycleEffect, State.beginCycle_withMem hagree]
    exact effectOf_withMem hagree' _
  obtain ⟨m', happly, hcells, hshadows⟩ := s.cycleEffect.apply_shadowsKept hagree'
  refine ⟨m', ?_, ?_, ?_⟩
  · rw [State.afterCycle, heffect, State.beginCycle_withMem hagree, happly, State.powerCheck_withMem,
      ← State.afterCycle]
  · rwa [State.afterCycle, State.powerCheck_mem]
  · rwa [State.afterCycle, State.powerCheck_mem, ← s.beginCycle_mem]

/-- Settles O29: a RUNNING core takes the two cycles of `afterCycle_shadowsKept`, a stopped one keeps both memories. -/
theorem shadowedCellsUnreachable : Obligations.ShadowedCellsUnreachable := by
  intro s t m hagree hstep
  obtain ⟨hrun, rfl⟩ | ⟨hstopped, rfl⟩ := step_eq_next_iff.1 hstep
  · have hstep' : step (s.withMem m) = .next (s.withMem m).afterCycle := step_of_running hrun
    obtain ⟨m', heq, hkept⟩ := State.afterCycle_shadowsKept hagree
    exact ⟨m', hstep'.trans (congrArg _ heq), hkept⟩
  · exact ⟨m, step_of_stopped hstopped, hagree, fun _ _ => ⟨rfl, rfl⟩⟩

end Sys2Proof.Machine
end

section
/-! Proofs: the invariant of R26 at reset and over every step. -/

namespace Sys2Proof.Machine

/-- Settles O48: `resetWith` lists every field, and the default image lists no cell. -/
theorem resetValues : Obligations.ResetValues := by
  have hregs : ∀ (pc : Word) (image : Memory) (r : Reg), (State.resetWith pc image).readReg r = 0x0000 := by
    intro pc image r
    fin_cases r <;> rfl
  exact ⟨fun pc image => ⟨hregs pc image, rfl, rfl, rfl, rfl, rfl, fun _ => rfl, rfl, rfl, rfl, rfl, rfl, rfl⟩, rfl,
    hregs _ _, fun _ => rfl⟩

/-- The reset state meets the invariant whatever PC and canonical image it starts with. -/
theorem State.resetWith_inv (pc : Word) {image : Memory} (hwf : image.wf) : (State.resetWith pc image).Inv where
  memWf := hwf
  oneFlag := .inr (.inl ⟨rfl, rfl, rfl⟩)
  poweredWhileRunning _ := (by decide : (0x8000 : Word)[15] = true)
  unpoweredWhenHalted h := nomatch h
  readyWhenStopped h := absurd rfl h
  noRecordUnlessFaulted _ := rfl
  recordWhenFaulted h := nomatch h

/-- Settles O50: the default image is canonical too. -/
theorem resetMeetsInvariant : Obligations.ResetMeetsInvariant :=
  ⟨fun pc _ hwf => State.resetWith_inv pc hwf, State.resetWith_inv Config.pcReset Memory.wf_nil⟩

/-- Exactly one of N, Z and P is set (R26 (i)). -/
def State.OneFlag (s : State) : Prop :=
  (s.n = true ∧ s.z = false ∧ s.p = false) ∨ (s.n = false ∧ s.z = true ∧ s.p = false) ∨
    (s.n = false ∧ s.z = false ∧ s.p = true)

theorem State.oneFlag_congr {s t : State} (hflags : SameFlags s t) : t.OneFlag ↔ s.OneFlag := by
  obtain ⟨hn, hz, hp⟩ := hflags
  simp only [State.OneFlag, hn, hz, hp]

/-- `setcc` sets one flag: the sign bit, the zero test, or neither. -/
theorem State.oneFlag_setcc (s : State) (v : Word) : (s.setcc v).OneFlag := by
  obtain ⟨hneg, hzero, hpos, -⟩ := setccByValue s v
  cases h15 : v[15] with
  | true => exact .inl (hneg h15)
  | false =>
    by_cases h0 : v = 0x0000
    · exact .inr (.inl (hzero h0))
    · exact .inr (.inr (hpos h15 h0))

/-- Every effect keeps one flag set. -/
theorem Effect.oneFlag_apply (e : Effect) {s : State} (hflag : s.OneFlag) : (e.apply s).OneFlag := by
  cases hsets : e.setsFlags with
  | true =>
    obtain ⟨dr, v, rfl⟩ := Effect.eq_result_of_setsFlags hsets
    exact (s.writeReg dr v).oneFlag_setcc v
  | false => exact (State.oneFlag_congr (e.sameFlags_apply s hsets)).2 hflag

/-- Every effect keeps the canonical form. -/
theorem Effect.memWf_apply (e : Effect) {s : State} (hwf : s.mem.wf) : (e.apply s).mem.wf := by
  cases e with
  | store a v => exact s.memWrite_wf a v hwf
  | _ => exact hwf

/-- An effect that clears the power bit is a store to the MCR, which leaves the DSR as it was. -/
theorem Effect.ready_apply_of_off (e : Effect) {s : State} (hpower : s.mcr[15] = true) (hready : s.dsr[15] = true)
    (hoff : (e.apply s).mcr[15] = false) : (e.apply s).dsr[15] = true := by
  by_cases hstore : ∃ v, e = .store 0xFFFE v
  · obtain ⟨v, rfl⟩ := hstore
    exact hready
  · rw [e.apply_mcr_of_ne s (not_exists.1 hstore), hpower] at hoff
    contradiction

/-- The power check makes the invariant of a RUNNING state whose display is ready if its power bit has been cleared. -/
theorem State.powerCheck_inv {s : State} (hwf : s.mem.wf) (hflag : s.OneFlag) (hrun : s.run = .running)
    (hrecord : s.fault = none) (hready : s.mcr[15] = false → s.dsr[15] = true) : s.powerCheck.Inv := by
  cases hpower : s.powered with
  | true =>
    rw [s.powerCheck_of_powered hpower]
    exact ⟨hwf, hflag, fun _ => hpower, by simp [hrun], by simp [hrun], fun _ => hrecord, by simp [hrun]⟩
  | false =>
    rw [s.powerCheck_of_off hrun hpower]
    exact ⟨hwf, hflag, nofun, fun _ => hpower, fun _ => hready hpower, fun _ => hrecord, nofun⟩

/-- A cycle of a RUNNING core keeps the invariant: the decode fault leaves the record of the word in the IR, every other
effect a RUNNING state for the power check. -/
theorem State.afterCycle_inv {s : State} (hinv : s.Inv) (hrun : s.run = .running) : s.afterCycle.Inv := by
  have hwf : s.beginCycle.mem.wf := by rw [s.beginCycle_mem]; exact hinv.memWf
  have hflag : s.beginCycle.OneFlag :=
    (State.oneFlag_congr ⟨s.beginCycle_n, s.beginCycle_z, s.beginCycle_p⟩).2 hinv.oneFlag
  have hready : s.beginCycle.dsr[15] = true := by simpa using s.displayFlush_dsr_bit
  have hpower : s.beginCycle.mcr[15] = true := by simpa using hinv.poweredWhileRunning hrun
  by_cases hfault : ∃ op, s.cycleEffect = .fault op
  · obtain ⟨op, hfault⟩ := hfault
    obtain ⟨rfl, hop⟩ := (s.cycleEffect_eq_fault_iff op).1 hfault
    rw [s.afterCycle_of_fault hfault]
    exact ⟨hwf, hflag, nofun, nofun, fun _ => hready, fun h => absurd rfl h, fun _ => ⟨rfl, hop⟩⟩
  · obtain ⟨hsame, hrecord⟩ := s.cycleEffect.sameRun_apply s.beginCycle (not_exists.1 hfault)
    refine State.powerCheck_inv (s.cycleEffect.memWf_apply hwf) (s.cycleEffect.oneFlag_apply hflag) ?_ ?_
      (s.cycleEffect.ready_apply_of_off hpower hready)
    · rw [hsame, s.beginCycle_run, hrun]
    · rw [hrecord, s.beginCycle_fault, hinv.noRecordUnlessFaulted (by simp [hrun])]

/-- Settles O51: a cycle keeps the invariant, and a stopped core its state. -/
theorem stepKeepsInvariant : Obligations.StepKeepsInvariant := by
  intro s t hinv hstep
  obtain ⟨hrun, rfl⟩ | ⟨-, rfl⟩ := step_eq_next_iff.1 hstep
  · exact State.afterCycle_inv hinv hrun
  · exact hinv

end Sys2Proof.Machine
end

section
/-! Proofs: the devices seen by loads and by the fetch (R26 (iii), R45). -/

namespace Sys2Proof.Machine

/-- Settles O42: the load reads the DSR of the state after the flush. -/
theorem loadOfStatusFindsReady : Obligations.LoadOfStatusFindsReady := by
  intro s dr hrun hload
  have hdsr : s.beginCycle.memRead 0xFE04 = s.displayFlush.dsr := s.beginCycle.memRead_dsr.trans s.beginCycle_dsr
  refine ⟨_, step_of_running hrun, ?_⟩
  obtain ⟨hdest, -⟩ := State.afterCycle_of_result (effectOf_of_loadOf hload)
  simp only [hdest, hdsr, s.displayFlush_dsr_bit]

/-- A fetched word 0x8000 is the decode fault of opcode 8, with the incremented PC recorded. -/
theorem step_of_fetched_8000 {s : State} (hrun : s.run = .running) (hfetch : s.displayFlush.memRead s.pc = 0x8000) :
    ∃ t, step s = .next t ∧ t.run = .faulted ∧ t.fault = some ⟨8, s.pc + 1⟩ := by
  obtain ⟨t, hstep, -, hfaulted, -⟩ := faultsExactlyOnUnsupportedOpcode s 0x8000 hrun hfetch
  exact ⟨t, hstep, by rw [hfaulted (by decide)], by rw [hfaulted (by decide)]; rfl⟩

/-- Settles O43: one read equation per device address, after the flush. -/
theorem fetchFromDeviceRegister : Obligations.FetchFromDeviceRegister := by
  intro s hrun
  have hdsr : s.pc = 0xFE04 → s.displayFlush.memRead s.pc = s.displayFlush.dsr := fun hpc => by rw [hpc]; rfl
  have hddr : s.pc = 0xFE06 → s.displayFlush.memRead s.pc = s.ddr := fun hpc => by rw [hpc]; exact s.displayFlush_ddr
  have hmcr : s.pc = 0xFFFE → s.displayFlush.memRead s.pc = s.mcr := fun hpc => by rw [hpc]; exact s.displayFlush_mcr
  refine ⟨fun hpc => ?_, fun hpc => s.beginCycle_ir.trans (hddr hpc), fun hpc => s.beginCycle_ir.trans (hmcr hpc),
    fun hpc hvalue => ?_, fun hpc hvalue => ?_⟩
  · simp only [s.beginCycle_ir, hdsr hpc, s.displayFlush_dsr_bit]
  · have hflushed : s.displayFlush.dsr = 0x8000 := by
      rw [s.displayFlush_dsr]
      obtain h | h := hvalue <;> simp [h]
    have hfault := step_of_fetched_8000 hrun ((hdsr hpc).trans hflushed)
    rwa [hpc] at hfault
  · have hfault := step_of_fetched_8000 hrun ((hmcr hpc).trans hvalue)
    rwa [hpc] at hfault

end Sys2Proof.Machine
end

section
/-! Proofs: calls and returns, and the branches that never or always branch (R64, R110, R114). -/

namespace Sys2Proof.Machine

/-- A cycle that runs JSR or TRAP leaves the address after it in x[7]. -/
theorem State.readReg_seven_afterCycle_of_link {s : State} {target : Word} (hlink : s.cycleEffect = .link target) :
    s.afterCycle.readReg 7 = s.pc + 1 := by
  rw [s.readReg_afterCycle, hlink]
  exact (s.beginCycle.readReg_linkTo_seven target).trans s.beginCycle_pc

/-- Settles O46: the call links to A + 1, and RET goes to what x[7] holds. -/
theorem callThenReturn : Obligations.CallThenReturn := by
  intro i s u hcall hrun hdecode
  have hlink : ∃ target, s.cycleEffect = .link target := by
    rw [State.cycleEffect_of_decode hdecode]
    obtain ⟨off, rfl⟩ | ⟨vec, rfl⟩ := hcall
    · exact ⟨_, rfl⟩
    · exact ⟨_, rfl⟩
  obtain ⟨target, hlink⟩ := hlink
  have hseven := State.readReg_seven_afterCycle_of_link hlink
  refine ⟨_, step_of_running hrun, hseven, fun hrun' hret hkept => ⟨_, step_of_running hrun', ?_⟩⟩
  rw [u.afterCycle_pc, hret, pcAfter, u.readReg_beginCycle, hkept, hseven]

/-- A word below 2 ^ n has no bit from n on. -/
theorem getLsbD_of_toNat_lt {w : Word} {n k : Nat} (hw : w.toNat < 2 ^ n) (hk : n ≤ k) : w.getLsbD k = false :=
  Nat.testBit_lt_two_pow (hw.trans_le (Nat.pow_le_pow_right (by decide) hk))

/-- The words 0x0000 to 0x01FF are branches on no flag. -/
theorem decode_of_lt_0200 {w : Word} (hw : w.toNat < 0x0200) :
    decode w = .br false false false (Word.pcOffset9 w) := by
  have hhigh : ∀ k, 9 ≤ k → w.getLsbD k = false := fun k hk => getLsbD_of_toNat_lt (n := 9) hw hk
  have hop : w.extractLsb' 12 4 = 0b0000 := by
    ext k hk
    simp [hhigh (12 + k) (by omega)]
  have hn : w[11] = false := hhigh 11 (by decide)
  have hz : w[10] = false := hhigh 10 (by decide)
  have hp : w[9] = false := hhigh 9 (by decide)
  rw [decode_of_opcode_br hop, hn, hz, hp]

/-- Settles O47: no requested flag is set, or the one flag that is set is requested. -/
theorem branchNeverAndAlways : Obligations.BranchNeverAndAlways := by
  refine ⟨fun w s hw => ?_, fun s off hflags => ⟨_, exec_br true true true off s, ?_⟩⟩
  · have hnever : s.branchTaken false false false = false := rfl
    rw [decode_of_lt_0200 hw, exec_br, hnever]
    rfl
  · have halways : s.branchTaken true true true = true := by
      rw [s.branchTaken_iff]
      obtain ⟨h, -⟩ | ⟨-, h, -⟩ | ⟨-, -, h⟩ := hflags <;> simp [h]
    exact if_pos halways

end Sys2Proof.Machine
end

section
/-! Proofs: every image has a canonical memory (R5, R17), and a word placed for the next fetch is the one fetched. -/

namespace Sys2Proof.Machine

/-- The words of the image at the addresses below `n`, written one after the other. -/
def Memory.ofImageBelow (image : Word → Word) : Nat → Memory
  | 0 => []
  | n + 1 => Memory.write (Memory.ofImageBelow image n) n (image (BitVec.ofNat 16 n))

theorem Memory.ofImageBelow_wf (image : Word → Word) {n : Nat} (hn : n ≤ 65536) : (Memory.ofImageBelow image n).wf := by
  induction n with
  | zero => exact Memory.wf_nil
  | succ n ih => exact Memory.write_wf _ n _ (ih (by omega)) (by omega)

theorem Memory.read_ofImageBelow (image : Word → Word) {n a : Nat} (ha : a < n) :
    Memory.read (Memory.ofImageBelow image n) a = image (BitVec.ofNat 16 a) := by
  induction n with
  | zero => omega
  | succ n ih =>
    rw [Memory.ofImageBelow, Memory.read_write]
    split
    next hlast => rw [hlast]
    next hearlier => exact ih (by omega)

/-- Settles O49: the writes of all 65536 addresses. -/
theorem everyImageHasCanonicalForm : Obligations.EveryImageHasCanonicalForm := by
  refine fun image => ⟨Memory.ofImageBelow image (2 ^ 16), Memory.ofImageBelow_wf image (by decide), fun a => ?_⟩
  rw [Memory.read_ofImageBelow image a.isLt, BitVec.ofNat_toNat, BitVec.setWidth_eq]

/-- Placing a word changes no other field than memory or one device register. -/
theorem State.placeWord_pc_run (s : State) (a v : Word) :
    (s.placeWord a v).pc = s.pc ∧ (s.placeWord a v).run = s.run := by
  unfold State.placeWord
  repeat' split
  all_goals exact ⟨rfl, rfl⟩

/-- A word placed at an address is read there: but for the DDR's side effect, placing is `MemWrite`. -/
theorem State.memRead_placeWord_self (s : State) (a v : Word) : (s.placeWord a v).memRead a = v := by
  by_cases hddr : a = Config.ddrAddr
  · subst hddr
    rfl
  · have hstore : s.placeWord a v = s.memWrite a v := by simp [State.placeWord, State.memWrite, hddr]
    rw [hstore, s.memRead_memWrite_self]

/-- Settles O52: the flush changes a read at 0xFE04 alone. -/
theorem placedWordIsFetched : Obligations.PlacedWordIsFetched := by
  intro s w hrun hpc
  have hword : BitVec.ofNat 16 (w.toNat % 2 ^ 16) = w := by
    rw [Nat.mod_eq_of_lt w.isLt, BitVec.ofNat_toNat, BitVec.setWidth_eq]
  have hplaced : s.withFetchWord 16 w.toNat = s.placeWord s.pc w := by rw [State.withFetchWord, hword]
  obtain ⟨hpc', hrun'⟩ := s.placeWord_pc_run s.pc w
  have hir : (s.placeWord s.pc w).beginCycle.ir = w := by
    rw [State.beginCycle_ir, hpc', State.memRead_displayFlush _ hpc, s.memRead_placeWord_self]
  rw [hplaced]
  refine ⟨hir, by rw [decodeTableWord, hword], ?_⟩
  rw [step, hrun', hrun]
  show finishCycle (exec (decode (s.placeWord s.pc w).beginCycle.ir) (s.placeWord s.pc w).beginCycle) = _
  rw [hir]

end Sys2Proof.Machine
end
